-- ==== Sys2Proof/Word.lean ====
section
/-! DEFINITION. The word types of CHIP8-CORE (spec/00_scope.md R9 to R11, spec/10_state.md R20, R23): every value is an
unsigned bit vector of the width the spec gives it. -/

namespace Sys2Proof

/-- A register, memory cell or immediate `nn`: 8 bits (R20, R50, R73). -/
abbrev Byte := BitVec 8

/-- An opcode, `PC`, `I` or `SP`: 16 bits (R23, R26, R28, R70). -/
abbrev Word := BitVec 16

/-- The field `n`: a 4-bit count, 0 to 15 (R73). -/
abbrev Nibble := BitVec 4

/-- The field `nnn`: 12 bits, 0 to 4095 (R73). -/
abbrev Addr12 := BitVec 12

/-- A general register number, 0 to 15 (R20): the fields `x` and `y`. -/
abbrev Reg := Fin 16

/-- VF, the general register that several instructions also write as a flag (R21). -/
abbrev VF : Reg := 15

end Sys2Proof
end

