-- ==== Sys2Proof/Config.lean ====
section
/-! DEFINITION. The parameters of the block (spec/00_scope.md R7, R8) and its one free input. A parameter the spec leaves
open stands here at the spec's own value; the operations that depend on `SHR_DEST` or `I_ADD_MODULUS`, which R8 wants kept
configurable, take it as an argument, so that the other documented values are stated and tested by the same definitions. -/

namespace Sys2Proof

/-- The two values of the parameter `SHR_DEST` (R7, R8): which register receives the result of `8XY6`. -/
inductive ShrDest where
  | y
  | x
  deriving DecidableEq, Repr

/-- `MEM_SIZE` (R7, R50). -/
@[simp] abbrev Config.memSize : Nat := 4096

/-- `DISPLAY_W` (R7, R37). -/
@[simp] abbrev Config.displayW : Nat := 64

/-- `DISPLAY_H` (R7, R37). -/
@[simp] abbrev Config.displayH : Nat := 32

/-- `FONT_BASE`, where the font table is loaded (R7, R59). -/
@[simp] abbrev Config.fontBase : Nat := 0x000

/-- `FONT_SIZE` (R7): 16 glyphs of 5 bytes. -/
@[simp] abbrev Config.fontSize : Nat := 80

/-- `GLYPH_SIZE` (R7, R173). -/
@[simp] abbrev Config.glyphSize : Nat := 5

/-- `PROG_BASE`, where the program image is loaded (R7, R59). -/
@[simp] abbrev Config.progBase : Nat := 0x200

/-- `RESET_PC` (R7, R45). -/
@[simp] abbrev Config.resetPc : Word := 0x200

/-- `SCROLL_H`, the columns of `00FB` and `00FC` (R7, R104, R105). -/
@[simp] abbrev Config.scrollH : Nat := 4

/-- `STACK_BASE` (R7, decision D4). DESIGN CHOICE, unsafe: the parameter is fixed at the spec's value (entry 3). -/
@[simp] abbrev Config.stackBase : Nat := 0x52

/-- `STACK_LIMIT` (R7, decision D5). DESIGN CHOICE, unsafe: the parameter is fixed at the spec's value (entry 3). -/
@[simp] abbrev Config.stackLimit : Nat := 0x200

/-- `I_ADD_MODULUS` (R7, R8, R172, decision D3). DESIGN CHOICE, unsafe: fixed at the spec's value (entry 2). -/
@[simp] abbrev Config.iAddModulus : Nat := 4096

/-- `SHR_DEST` (R7, R8, R157, decision D2). DESIGN CHOICE, unsafe: fixed at the spec's value (entry 1). -/
@[simp] abbrev Config.shrDest : ShrDest := .y

/-- The free input `rnd` (R41, R143, decision D19): the byte of the `k`-th draw. A constant with no body, so nothing can be
proved of its values. DESIGN CHOICE of form, safe (entry 4). -/
opaque Config.randomByte : Nat → Byte

/-- The conventional font table (spec/93_implementation_defined.md G1). PRESUMED, safe: no definition of the machine
depends on it; the host supplies the font when it boots the core (entry 14). -/
def Config.conventionalFont : List Byte :=
  [0xF0, 0x90, 0x90, 0x90, 0xF0] ++ [0x20, 0x60, 0x20, 0x20, 0x70] ++
  [0xF0, 0x10, 0xF0, 0x80, 0xF0] ++ [0xF0, 0x10, 0xF0, 0x10, 0xF0] ++
  [0x90, 0x90, 0xF0, 0x10, 0x10] ++ [0xF0, 0x80, 0xF0, 0x10, 0xF0] ++
  [0xF0, 0x80, 0xF0, 0x90, 0xF0] ++ [0xF0, 0x10, 0x20, 0x40, 0x40] ++
  [0xF0, 0x90, 0xF0, 0x90, 0xF0] ++ [0xF0, 0x90, 0xF0, 0x10, 0xF0] ++
  [0xF0, 0x90, 0xF0, 0x90, 0x90] ++ [0xE0, 0x90, 0xE0, 0x90, 0xE0] ++
  [0xF0, 0x80, 0x80, 0x80, 0xF0] ++ [0xE0, 0x90, 0x90, 0x90, 0xE0] ++
  [0xF0, 0x80, 0xF0, 0x80, 0xF0] ++ [0xF0, 0x80, 0xF0, 0x80, 0x80]

end Sys2Proof
end

