-- ==== Sys2Proof/Syntax.lean ====
section
/-! DEFINITION. The instructions of CHIP8-CORE, one constructor per row of spec/opcode_table.json (spec/30_encoding.md R75,
R86). Each constructor carries every field of its word, the ignored ones too (R78), so that an instruction is one word and a
word is one instruction (entry 10). -/

namespace Sys2Proof

/-- An instruction: the operands are the fields of R72. -/
inductive Instr where
  /-- `00Cn`, R101. -/
  | scd (n : Nibble)
  /-- `00E0`, R102. -/
  | cls
  /-- `00EE`, R103. -/
  | ret
  /-- `00FB`, R104. -/
  | scr
  /-- `00FC`, R105. -/
  | scl
  /-- `00FD`, R106. -/
  | exit
  /-- `00FE`, R108. -/
  | low
  /-- `00FF`, R109. -/
  | high
  /-- `0NNN`, the rest of the family, R110; `nnn` is ignored. -/
  | sys (nnn : Addr12)
  /-- `1NNN`, R121. -/
  | jp (nnn : Addr12)
  /-- `2NNN`, R122. -/
  | call (nnn : Addr12)
  /-- `3XNN`, R123. -/
  | seImm (x : Reg) (nn : Byte)
  /-- `4XNN`, R124. -/
  | sneImm (x : Reg) (nn : Byte)
  /-- `5XY0`, R125; the low nibble `n` is ignored (R77). -/
  | seReg (x y : Reg) (n : Nibble)
  /-- `6XNN`, R141. -/
  | ldImm (x : Reg) (nn : Byte)
  /-- `7XNN`, R142. -/
  | addImm (x : Reg) (nn : Byte)
  /-- `8XY0`, R151. -/
  | ldReg (x y : Reg)
  /-- `8XY1`, R152. -/
  | orReg (x y : Reg)
  /-- `8XY2`, R153. -/
  | andReg (x y : Reg)
  /-- `8XY3`, R154. -/
  | xorReg (x y : Reg)
  /-- `8XY4`, R155. -/
  | addReg (x y : Reg)
  /-- `8XY5`, R156. -/
  | subReg (x y : Reg)
  /-- `8XY6`, R157. -/
  | shrReg (x y : Reg)
  /-- `8XY7`, R158. -/
  | subnReg (x y : Reg)
  /-- `8XYE`, R159; `y` is ignored. -/
  | shlReg (x y : Reg)
  /-- `9XY0`, R126; the low nibble `n` is ignored (R77). -/
  | sneReg (x y : Reg) (n : Nibble)
  /-- `ANNN`, R171. -/
  | ldI (nnn : Addr12)
  /-- `BNNN`, R127. -/
  | jpV0 (nnn : Addr12)
  /-- `CXNN`, R143. -/
  | rnd (x : Reg) (nn : Byte)
  /-- `DXYN`, R186. -/
  | drw (x y : Reg) (n : Nibble)
  /-- `EX9E`, R192; `x` is ignored. -/
  | skp (x : Reg)
  /-- `EXA1`, R193; `x` is ignored. -/
  | sknp (x : Reg)
  /-- `FX07`, R194. -/
  | ldVxDt (x : Reg)
  /-- `FX0A`, R195; `x` is ignored. -/
  | ldVxK (x : Reg)
  /-- `FX15`, R196. -/
  | ldDtVx (x : Reg)
  /-- `FX18`, R197. -/
  | ldStVx (x : Reg)
  /-- `FX1E`, R172. -/
  | addI (x : Reg)
  /-- `FX29`, R173. -/
  | ldF (x : Reg)
  /-- `FX33`, R174. -/
  | ldB (x : Reg)
  /-- `FX55`, R175. -/
  | storeRegs (x : Reg)
  /-- `FX65`, R176. -/
  | loadRegs (x : Reg)
  /-- `8XYn` with another `n`, R160: illegal. -/
  | illegal8 (x y : Reg) (n : Nibble)
  /-- `EXnn` with another `nn`, R199: illegal. -/
  | illegalE (x : Reg) (nn : Byte)
  /-- `FXnn` with another `nn`, R199: illegal. -/
  | illegalF (x : Reg) (nn : Byte)
  deriving DecidableEq, Repr

end Sys2Proof
end

