-- ==== Sys2Proof/WellFormed.lean ====
section
/-! DEFINITION. Which instructions a word can stand for (spec/30_encoding.md R75, R79). The field widths are in the types; what
is checked here is the first-match order of the table: a catch-all row holds only what the rows before it leave. -/

namespace Sys2Proof

/-- The low twelve bits of a `0x0` word that one of rows 1 to 8 takes (R76): all others are `SYS`. -/
def takenInFamily0 (nnn : Addr12) : Bool :=
  nnn.extractLsb' 4 8 == 0x0C || nnn == 0x0E0 || nnn == 0x0EE || nnn == 0x0FB || nnn == 0x0FC ||
    nnn == 0x0FD || nnn == 0x0FE || nnn == 0x0FF

/-- The low nibbles of the `0x8` family that are legal (R79). -/
def legalLow8 (n : Nibble) : Bool :=
  n == 0x0 || n == 0x1 || n == 0x2 || n == 0x3 || n == 0x4 || n == 0x5 || n == 0x6 || n == 0x7 || n == 0xE

/-- The low bytes of the `0xE` family that are legal (R79). -/
def legalLowE (nn : Byte) : Bool :=
  nn == 0x9E || nn == 0xA1

/-- The low bytes of the `0xF` family that are legal (R79). -/
def legalLowF (nn : Byte) : Bool :=
  nn == 0x07 || nn == 0x0A || nn == 0x15 || nn == 0x18 || nn == 0x1E || nn == 0x29 || nn == 0x33 || nn == 0x55 ||
    nn == 0x65

/-- An instruction that some word stands for. -/
def Instr.wellFormed : Instr → Bool
  | .sys nnn => !takenInFamily0 nnn
  | .illegal8 _ _ n => !legalLow8 n
  | .illegalE _ nn => !legalLowE nn
  | .illegalF _ nn => !legalLowF nn
  | .scd _ | .cls | .ret | .scr | .scl | .exit | .low | .high => true
  | .jp _ | .call _ | .seImm _ _ | .sneImm _ _ | .seReg _ _ _ | .sneReg _ _ _ | .jpV0 _ => true
  | .ldImm _ _ | .addImm _ _ | .rnd _ _ => true
  | .ldReg _ _ | .orReg _ _ | .andReg _ _ | .xorReg _ _ | .addReg _ _ | .subReg _ _ | .shrReg _ _ | .subnReg _ _
  | .shlReg _ _ => true
  | .ldI _ | .addI _ | .ldF _ | .ldB _ | .storeRegs _ | .loadRegs _ => true
  | .drw _ _ _ => true
  | .skp _ | .sknp _ | .ldVxDt _ | .ldVxK _ | .ldDtVx _ | .ldStVx _ => true

/-- The illegal rows of the table (R75 rows 42 to 44, R79). -/
def Instr.illegal : Instr → Bool
  | .illegal8 _ _ _ | .illegalE _ _ | .illegalF _ _ => true
  | .scd _ | .cls | .ret | .scr | .scl | .exit | .low | .high | .sys _ => false
  | .jp _ | .call _ | .seImm _ _ | .sneImm _ _ | .seReg _ _ _ | .sneReg _ _ _ | .jpV0 _ => false
  | .ldImm _ _ | .addImm _ _ | .rnd _ _ => false
  | .ldReg _ _ | .orReg _ _ | .andReg _ _ | .xorReg _ _ | .addReg _ _ | .subReg _ _ | .shrReg _ _ | .subnReg _ _
  | .shlReg _ _ => false
  | .ldI _ | .addI _ | .ldF _ | .ldB _ | .storeRegs _ | .loadRegs _ => false
  | .drw _ _ _ => false
  | .skp _ | .sknp _ | .ldVxDt _ | .ldVxK _ | .ldDtVx _ | .ldStVx _ => false

end Sys2Proof
end

