-- ==== Sys2Proof/Decode.lean ====
section
/-! DEFINITION. The decoder, total on 16-bit words (spec/30_encoding.md R74, R82), the decoder of a byte sequence, and the
encoder, written from the same tables (R71, R72, R75). The opcode map of R75 stands beside them as data. -/

namespace Sys2Proof

/-! ## Fields of a word (R72) -/

/-- `w[15:12]`, the dispatch nibble. -/
def fieldOp (w : Word) : Nibble := w.extractLsb' 12 4

/-- `x = w[11:8]`. -/
def fieldX (w : Word) : Reg := (w.extractLsb' 8 4).toFin

/-- `y = w[7:4]`. -/
def fieldY (w : Word) : Reg := (w.extractLsb' 4 4).toFin

/-- `n = w[3:0]`. -/
def fieldN (w : Word) : Nibble := w.extractLsb' 0 4

/-- `nn = w[7:0]`. -/
def fieldNN (w : Word) : Byte := w.extractLsb' 0 8

/-- `nnn = w[11:0]`. -/
def fieldNNN (w : Word) : Addr12 := w.extractLsb' 0 12

/-! ## The decoder (R74) -/

/-- The `0x0` family, matched on the whole word (R76). -/
def decode0 (w : Word) : Instr :=
  if w.extractLsb' 4 12 = 0x00C then .scd (fieldN w)
  else if w = 0x00E0 then .cls
  else if w = 0x00EE then .ret
  else if w = 0x00FB then .scr
  else if w = 0x00FC then .scl
  else if w = 0x00FD then .exit
  else if w = 0x00FE then .low
  else if w = 0x00FF then .high
  else .sys (fieldNNN w)

/-- The `0x8` family, dispatched on the low nibble. -/
def decode8 (w : Word) : Instr :=
  let x := fieldX w
  let y := fieldY w
  if fieldN w = 0x0 then .ldReg x y
  else if fieldN w = 0x1 then .orReg x y
  else if fieldN w = 0x2 then .andReg x y
  else if fieldN w = 0x3 then .xorReg x y
  else if fieldN w = 0x4 then .addReg x y
  else if fieldN w = 0x5 then .subReg x y
  else if fieldN w = 0x6 then .shrReg x y
  else if fieldN w = 0x7 then .subnReg x y
  else if fieldN w = 0xE then .shlReg x y
  else .illegal8 x y (fieldN w)

/-- The `0xE` family, dispatched on the low byte. -/
def decodeE (w : Word) : Instr :=
  let x := fieldX w
  if fieldNN w = 0x9E then .skp x
  else if fieldNN w = 0xA1 then .sknp x
  else .illegalE x (fieldNN w)

/-- The `0xF` family, dispatched on the low byte. -/
def decodeF (w : Word) : Instr :=
  let x := fieldX w
  if fieldNN w = 0x07 then .ldVxDt x
  else if fieldNN w = 0x0A then .ldVxK x
  else if fieldNN w = 0x15 then .ldDtVx x
  else if fieldNN w = 0x18 then .ldStVx x
  else if fieldNN w = 0x1E then .addI x
  else if fieldNN w = 0x29 then .ldF x
  else if fieldNN w = 0x33 then .ldB x
  else if fieldNN w = 0x55 then .storeRegs x
  else if fieldNN w = 0x65 then .loadRegs x
  else .illegalF x (fieldNN w)

/-- The decoder of R74: every word is an instruction, the illegal ones too (R81). -/
def decodeWord (w : Word) : Instr :=
  if fieldOp w = 0x0 then decode0 w
  else if fieldOp w = 0x1 then .jp (fieldNNN w)
  else if fieldOp w = 0x2 then .call (fieldNNN w)
  else if fieldOp w = 0x3 then .seImm (fieldX w) (fieldNN w)
  else if fieldOp w = 0x4 then .sneImm (fieldX w) (fieldNN w)
  else if fieldOp w = 0x5 then .seReg (fieldX w) (fieldY w) (fieldN w)
  else if fieldOp w = 0x6 then .ldImm (fieldX w) (fieldNN w)
  else if fieldOp w = 0x7 then .addImm (fieldX w) (fieldNN w)
  else if fieldOp w = 0x8 then decode8 w
  else if fieldOp w = 0x9 then .sneReg (fieldX w) (fieldY w) (fieldN w)
  else if fieldOp w = 0xA then .ldI (fieldNNN w)
  else if fieldOp w = 0xB then .jpV0 (fieldNNN w)
  else if fieldOp w = 0xC then .rnd (fieldX w) (fieldNN w)
  else if fieldOp w = 0xD then .drw (fieldX w) (fieldY w) (fieldN w)
  else if fieldOp w = 0xE then decodeE w
  else decodeF w

/-- `Fetch16` on two bytes (R53): the byte at the lower address is the high byte. -/
def bigEndian (hi lo : Byte) : Word := BitVec.ofNat 16 (hi.toNat * 256 + lo.toNat)

/-- The high byte of a word, `w[15:8]`. -/
def highByte (w : Word) : Byte := w.extractLsb' 8 8

/-- The low byte of a word, `w[7:0]`. -/
def lowByte (w : Word) : Byte := w.extractLsb' 0 8

/-- Why a byte sequence holds no instruction. Since every word is classified (R81), the only reason is that the sequence is
shorter than one word (R70). -/
inductive DecodeReject where
  | truncated
  deriving DecidableEq, Repr

/-- The first instruction of a byte sequence and the bytes after it; every instruction is two bytes (R70, R83). -/
def decodeBytes : List Byte → Except DecodeReject (Instr × List Byte)
  | hi :: lo :: rest => .ok (decodeWord (bigEndian hi lo), rest)
  | [_] => .error .truncated
  | [] => .error .truncated

/-- What the decoder reads from an instruction of `nbits` bits, given as a number that counts bits from the least
significant bit of the word; the bits above `nbits` are zero. -/
def decodeTableWord (nbits w : Nat) : Option Instr :=
  let word : Word := BitVec.ofNat 16 (w % 2 ^ nbits)
  match decodeBytes [highByte word, lowByte word] with
  | .ok (i, _) => some i
  | .error _ => none

/-! ## The encoder (R71, R72) -/

/-- Format `NNN`: a dispatch nibble and twelve bits. -/
def packNNN (op : Nat) (nnn : Addr12) : Word := BitVec.ofNat 16 (op * 4096 + nnn.toNat)

/-- Formats `XNN` and `XFF`: a dispatch nibble, a register and a byte. -/
def packXNN (op : Nat) (x : Reg) (nn : Byte) : Word := BitVec.ofNat 16 (op * 4096 + x.val * 256 + nn.toNat)

/-- Formats `XY`, `XYF` and `XYN`: a dispatch nibble, two registers and a nibble. -/
def packXYN (op : Nat) (x y : Reg) (n : Nibble) : Word :=
  BitVec.ofNat 16 (op * 4096 + x.val * 256 + y.val * 16 + n.toNat)

/-- The word of an instruction. -/
def encode : Instr → Word
  | .scd n => BitVec.ofNat 16 (0x00C0 + n.toNat)
  | .cls => 0x00E0
  | .ret => 0x00EE
  | .scr => 0x00FB
  | .scl => 0x00FC
  | .exit => 0x00FD
  | .low => 0x00FE
  | .high => 0x00FF
  | .sys nnn => packNNN 0x0 nnn
  | .jp nnn => packNNN 0x1 nnn
  | .call nnn => packNNN 0x2 nnn
  | .seImm x nn => packXNN 0x3 x nn
  | .sneImm x nn => packXNN 0x4 x nn
  | .seReg x y n => packXYN 0x5 x y n
  | .ldImm x nn => packXNN 0x6 x nn
  | .addImm x nn => packXNN 0x7 x nn
  | .ldReg x y => packXYN 0x8 x y 0x0
  | .orReg x y => packXYN 0x8 x y 0x1
  | .andReg x y => packXYN 0x8 x y 0x2
  | .xorReg x y => packXYN 0x8 x y 0x3
  | .addReg x y => packXYN 0x8 x y 0x4
  | .subReg x y => packXYN 0x8 x y 0x5
  | .shrReg x y => packXYN 0x8 x y 0x6
  | .subnReg x y => packXYN 0x8 x y 0x7
  | .shlReg x y => packXYN 0x8 x y 0xE
  | .sneReg x y n => packXYN 0x9 x y n
  | .ldI nnn => packNNN 0xA nnn
  | .jpV0 nnn => packNNN 0xB nnn
  | .rnd x nn => packXNN 0xC x nn
  | .drw x y n => packXYN 0xD x y n
  | .skp x => packXNN 0xE x 0x9E
  | .sknp x => packXNN 0xE x 0xA1
  | .ldVxDt x => packXNN 0xF x 0x07
  | .ldVxK x => packXNN 0xF x 0x0A
  | .ldDtVx x => packXNN 0xF x 0x15
  | .ldStVx x => packXNN 0xF x 0x18
  | .addI x => packXNN 0xF x 0x1E
  | .ldF x => packXNN 0xF x 0x29
  | .ldB x => packXNN 0xF x 0x33
  | .storeRegs x => packXNN 0xF x 0x55
  | .loadRegs x => packXNN 0xF x 0x65
  | .illegal8 x y n => packXYN 0x8 x y n
  | .illegalE x nn => packXNN 0xE x nn
  | .illegalF x nn => packXNN 0xF x nn

/-! ## The opcode map (R75) -/

/-- A row of R75: a word `w` matches when `w & mask` is `pattern`. -/
structure OpcodeRow where
  mask : Word
  pattern : Word
  deriving DecidableEq, Repr

/-- Whether a word matches a row. -/
def OpcodeRow.holds (r : OpcodeRow) (w : Word) : Bool := w &&& r.mask == r.pattern

/-- Rows 1 to 16 of R75. -/
def opcodeRows1 : List OpcodeRow :=
  [⟨0xFFF0, 0x00C0⟩, ⟨0xFFFF, 0x00E0⟩, ⟨0xFFFF, 0x00EE⟩, ⟨0xFFFF, 0x00FB⟩, ⟨0xFFFF, 0x00FC⟩, ⟨0xFFFF, 0x00FD⟩,
   ⟨0xFFFF, 0x00FE⟩, ⟨0xFFFF, 0x00FF⟩, ⟨0xF000, 0x0000⟩, ⟨0xF000, 0x1000⟩, ⟨0xF000, 0x2000⟩, ⟨0xF000, 0x3000⟩,
   ⟨0xF000, 0x4000⟩, ⟨0xF000, 0x5000⟩, ⟨0xF000, 0x6000⟩, ⟨0xF000, 0x7000⟩]

/-- Rows 17 to 30 of R75. -/
def opcodeRows2 : List OpcodeRow :=
  [⟨0xF00F, 0x8000⟩, ⟨0xF00F, 0x8001⟩, ⟨0xF00F, 0x8002⟩, ⟨0xF00F, 0x8003⟩, ⟨0xF00F, 0x8004⟩, ⟨0xF00F, 0x8005⟩,
   ⟨0xF00F, 0x8006⟩, ⟨0xF00F, 0x8007⟩, ⟨0xF00F, 0x800E⟩, ⟨0xF000, 0x9000⟩, ⟨0xF000, 0xA000⟩, ⟨0xF000, 0xB000⟩,
   ⟨0xF000, 0xC000⟩, ⟨0xF000, 0xD000⟩]

/-- Rows 31 to 44 of R75. -/
def opcodeRows3 : List OpcodeRow :=
  [⟨0xF0FF, 0xE09E⟩, ⟨0xF0FF, 0xE0A1⟩, ⟨0xF0FF, 0xF007⟩, ⟨0xF0FF, 0xF00A⟩, ⟨0xF0FF, 0xF015⟩, ⟨0xF0FF, 0xF018⟩,
   ⟨0xF0FF, 0xF01E⟩, ⟨0xF0FF, 0xF029⟩, ⟨0xF0FF, 0xF033⟩, ⟨0xF0FF, 0xF055⟩, ⟨0xF0FF, 0xF065⟩, ⟨0xF000, 0x8000⟩,
   ⟨0xF000, 0xE000⟩, ⟨0xF000, 0xF000⟩]

/-- The opcode map of R75, in its order: where a word matches several rows, the first wins. -/
def opcodeMap : List OpcodeRow := opcodeRows1 ++ opcodeRows2 ++ opcodeRows3

/-- The position in `opcodeMap`, counted from 0, of the first row a word matches. -/
def firstMatch (w : Word) : Option Nat := opcodeMap.findIdx? (OpcodeRow.holds · w)

/-- The position in `opcodeMap` of an instruction's row. -/
def Instr.rowIndex : Instr → Nat
  | .scd _ => 0
  | .cls => 1
  | .ret => 2
  | .scr => 3
  | .scl => 4
  | .exit => 5
  | .low => 6
  | .high => 7
  | .sys _ => 8
  | .jp _ => 9
  | .call _ => 10
  | .seImm _ _ => 11
  | .sneImm _ _ => 12
  | .seReg _ _ _ => 13
  | .ldImm _ _ => 14
  | .addImm _ _ => 15
  | .ldReg _ _ => 16
  | .orReg _ _ => 17
  | .andReg _ _ => 18
  | .xorReg _ _ => 19
  | .addReg _ _ => 20
  | .subReg _ _ => 21
  | .shrReg _ _ => 22
  | .subnReg _ _ => 23
  | .shlReg _ _ => 24
  | .sneReg _ _ _ => 25
  | .ldI _ => 26
  | .jpV0 _ => 27
  | .rnd _ _ => 28
  | .drw _ _ _ => 29
  | .skp _ => 30
  | .sknp _ => 31
  | .ldVxDt _ => 32
  | .ldVxK _ => 33
  | .ldDtVx _ => 34
  | .ldStVx _ => 35
  | .addI _ => 36
  | .ldF _ => 37
  | .ldB _ => 38
  | .storeRegs _ => 39
  | .loadRegs _ => 40
  | .illegal8 _ _ _ => 41
  | .illegalE _ _ => 42
  | .illegalF _ _ => 43

/-- An instruction's row of R75. -/
def Instr.row (i : Instr) : OpcodeRow := opcodeMap.getD i.rowIndex ⟨0, 0⟩

end Sys2Proof
end

