-- ==== Sys2Proof/Machine/State.lean ====
section
/-! DEFINITION. The state of CHIP8-CORE as plain data: everything spec/10_state.md and spec/20_memory.md give the machine,
its value after reset (R45, R240), and the reasons a step can stop. -/

namespace Sys2Proof.Machine

/-- The codes of the register `FAULT` (R34, R201). The register is 3 bits wide and the value 7 is never produced, so the
seven codes are all it can hold; `FaultCode.code` in Ops.lean gives the number. -/
inductive FaultCode where
  /-- No fault so far. -/
  | none
  /-- The fetch stage, `PC > 4094`. -/
  | fetchRange
  /-- `FX33`, `FX55`, `FX65`, `DXYN` reaching past the last byte of memory. -/
  | memRange
  /-- `2NNN` with the stack region full. -/
  | stackOverflow
  /-- `00EE` with the stack region empty. -/
  | stackUnderflow
  /-- `DXYN` reaching outside the grid. -/
  | displayRange
  /-- An illegal word (R79). -/
  | decode
  deriving DecidableEq, Repr

/-- The display buffer (R37, R38): 32 rows, each of 64 one-bit pixels, row 0 first and column 0 first. Pixels are read and
written by `Display.px` and `Display.setPx` of Machine/Display.lean. -/
abbrev Display := Vector (Vector Bool 64) 32

/-- Memory (R50): the bytes that differ from the reset content, by address, in the canonical form `Memory.wf` of
Machine/Ops.lean. -/
abbrev Memory := List Host.Cell

/-- The whole state of the block (the table that opens spec/10_state.md). -/
structure State where
  /-- `V[0]` to `V[15]` (R20). -/
  v : Vector Byte 16
  /-- `PC` (R23). -/
  pc : Word
  /-- `I` (R26). -/
  i : Word
  /-- `SP`, the byte address of the next free stack slot (R28). -/
  sp : Word
  /-- `DT`, the delay timer (R30). -/
  dt : Byte
  /-- `ST`, the sound timer (R31). -/
  st : Byte
  /-- `RUN` (R32). -/
  run : Bool
  /-- `RP`, the repaint flag (R33). -/
  rp : Bool
  /-- `FAULT` (R34). -/
  fault : FaultCode
  /-- `FINFO` (R35). -/
  finfo : Word
  /-- `Px[c, r]` (R37). -/
  px : Display
  /-- `M[a]` (R50). -/
  mem : Memory
  /-- `K[0]` to `K[15]`, the key port, driven by the host and read by no instruction (R39). -/
  keys : Vector Bool 16
  /-- `BEEP` of the cycle just run (R40). DESIGN CHOICE, safe: an output held as a field (entry 6). -/
  beep : Bool
  /-- How many random bytes have been drawn: the model's own field, from which `Config.randomByte` gives the free input
  `rnd` (R41). DESIGN CHOICE, safe (entry 4). -/
  draws : Nat
  deriving DecidableEq, Repr

/-- The state right after reset (R45, R240), before the host's load. `keys` and `draws` have no value in the spec: DESIGN
CHOICE, unsafe (entries 4 and 5). -/
def State.reset : State where
  v := Vector.replicate 16 0
  pc := Config.resetPc
  i := 0
  sp := BitVec.ofNat 16 Config.stackBase
  dt := 0
  st := 0
  run := true
  rp := false
  fault := .none
  finfo := 0
  px := Vector.replicate 32 (Vector.replicate 64 false)
  mem := []
  keys := Vector.replicate 16 false
  beep := false
  draws := 0

/-- Why a step stops the model with a fault. There is no constructor: every fault of the hardware is a change of state the
spec describes (R203, R204), and a halted core takes cycles that change nothing (R207), so no step stops. Safe: the type says
that a step never stops so (entry 8). -/
inductive Fault where
  deriving DecidableEq, Repr

/-- Why a step is refused. -/
inductive Refusal where
  /-- Raised by an arm of `exec` whose instruction has no meaning; no arm raises it now. Safe: the model stops. -/
  | notModelled (mnemonic : String)
  deriving DecidableEq, Repr

end Sys2Proof.Machine
end

