-- ==== Sys2Proof/Machine/Ops.lean ====
section
/-! DEFINITION. The shared operations over memory, registers and the stack, and the one operation that takes a fault
(spec/20_memory.md R50 to R57, spec/10_state.md R20 to R35, spec/60_exceptions.md R203 to R205). -/

namespace Sys2Proof.Machine

/-! ## Memory cells (R50, R52) -/

/-- What an address that is not listed reads as: the reset content of memory (R45, R50). -/
def Memory.unlisted : Byte := 0

/-- The canonical form: addresses strictly rising and below 4096, and no entry equal to what an unlisted address reads as. -/
def Memory.wf : Memory → Bool
  | [] => true
  | (a, b) :: rest => decide (a < Config.memSize) && decide (b ≠ Memory.unlisted) && rest.all (fun c => decide (a < c.1)) &&
      Memory.wf rest

/-- The byte at an address. -/
def Memory.read : Memory → Nat → Byte
  | [], _ => Memory.unlisted
  | (k, c) :: rest, a => if k = a then c else Memory.read rest a

/-- Put an entry in its place, or take the place's entry away when the byte is what an unlisted address reads as. -/
def Memory.place (a : Nat) (b : Byte) : Memory → Memory
  | [] => if b = Memory.unlisted then [] else [(a, b)]
  | (k, c) :: rest =>
    if a < k then (if b = Memory.unlisted then (k, c) :: rest else (a, b) :: (k, c) :: rest)
    else if a = k then (if b = Memory.unlisted then rest else (a, b) :: rest)
    else (k, c) :: Memory.place a b rest

/-- Store a byte. An address outside memory is not accessed and never wrapped (R52); the checks of Operands.lean raise the
fault before any store. -/
def Memory.write (m : Memory) (a : Nat) (b : Byte) : Memory :=
  if a < Config.memSize then Memory.place a b m else m

/-- Store bytes at ascending addresses from `a` (R57). -/
def Memory.writeBytes (m : Memory) (a : Nat) : List Byte → Memory
  | [] => m
  | b :: rest => Memory.writeBytes (m.write a b) (a + 1) rest

/-- `MemRead(a, 1)` (R12), for an address already checked. -/
def memRead (s : State) (a : Nat) : Byte := s.mem.read a

/-- `MemWrite(a, 1, v)` (R12), for an address already checked. -/
def memWrite (a : Nat) (b : Byte) (s : State) : State := { s with mem := s.mem.write a b }

/-! ## General registers (R20, R21) -/

/-- `V[r]`. -/
def readV (s : State) (r : Reg) : Byte := s.v[r]

/-- `V[r] <- b`. -/
def writeV (r : Reg) (b : Byte) (s : State) : State := { s with v := s.v.set r.val b }

/-! ## The program counter (R23, R24) -/

/-- `pc <- target`. -/
def setPc (target : Word) (s : State) : State := { s with pc := target }

/-- `pc <- PC + 2` when a skip is taken (R128); the word skipped is not looked at. -/
def skipIf (taken : Bool) (s : State) : State := if taken then setPc (s.pc + 2) s else s

/-! ## The address register (R26) -/

/-- `I <- a`, for a value the rules keep below 4096 (R27). -/
def setI (a : Nat) (s : State) : State := { s with i := BitVec.ofNat 16 a }

/-! ## The stack in memory (R28, R54) -/

/-- `Push16` (R12): low byte first, then `SP <- SP + 2`. -/
def push16 (w : Word) (s : State) : State :=
  let s := memWrite s.sp.toNat (lowByte w) s
  let s := memWrite (s.sp.toNat + 1) (highByte w) s
  { s with sp := s.sp + 2 }

/-- `Pop16` (R12): `SP <- SP - 2`, then the two bytes at `SP`, low byte first. The bytes stay in memory. -/
def pop16 (s : State) : Word × State :=
  let s := { s with sp := s.sp - 2 }
  (bigEndian (memRead s (s.sp.toNat + 1)) (memRead s s.sp.toNat), s)

/-! ## Status, timers and ports -/

/-- `RP <- 1` (R33). -/
def setRepaint (s : State) : State := { s with rp := true }

/-- `DT <- b` (R30). -/
def setDt (b : Byte) (s : State) : State := { s with dt := b }

/-- `ST <- b` (R31). -/
def setSt (b : Byte) (s : State) : State := { s with st := b }

/-- `RUN <- 0` (R32). -/
def halt (s : State) : State := { s with run := false }

/-- The random byte of the next `CXNN` (R41): free, a fresh one for every draw. -/
def drawnByte (s : State) : Byte := Config.randomByte s.draws

/-- One draw has been taken. -/
def countDraw (s : State) : State := { s with draws := s.draws + 1 }

/-! ## Taking a fault (R203, R204) -/

/-- The number of a code in the 3-bit register `FAULT` (R34). -/
def FaultCode.code : FaultCode → BitVec 3
  | .none => 0
  | .fetchRange => 1
  | .memRange => 2
  | .stackOverflow => 3
  | .stackUnderflow => 4
  | .displayRange => 5
  | .decode => 6

/-- Fault entry, shared by DecodeError and BoundsError: `FAULT`, `FINFO` and `RUN` are written and nothing else changes (R203,
R204, R205). There is no handler and no saved state beyond these (R208). A BoundsError's cycle also skips the timer tick, which
is the cycle's part (`finishCycle`). There is no return from a fault: only `State.reset` leaves the halted state (R208). -/
def takeFault (code : FaultCode) (info : Word) (s : State) : State :=
  { s with run := false, fault := code, finfo := info }

end Sys2Proof.Machine
end

