-- ==== Sys2Proof/Machine/Operands.lean ====
section
/-! DEFINITION. Effective addresses and the checks that come before an instruction's first write (spec/44_index_memory.md R170,
R177, spec/60_exceptions.md R201, R205, R206). -/

namespace Sys2Proof.Machine

/-- The one addressing mode: `I + k`, in the integers and never reduced (R170). -/
def effAddr (s : State) (k : Nat) : Nat := s.i.toNat + k

/-- The check of a transfer of `len` bytes from address `a` (R52): the whole range lies in memory, or `len` is 0. -/
def rangeCheck (a len : Nat) : Option FaultCode :=
  if 0 < len ∧ a + len > Config.memSize then some .memRange else none

/-- The check of `2NNN` (R29, R122). -/
def pushCheck (s : State) : Option FaultCode :=
  if s.sp.toNat + 2 > Config.stackLimit then some .stackOverflow else none

/-- The check of `00EE` (R29, R103), with the two bytes' own range check after it (R52). DESIGN CHOICE, unsafe, for states that
no run reaches only: a stack pointer so far above the stack region that the popped bytes lie outside memory (entry 9). -/
def popCheck (s : State) : Option FaultCode :=
  if s.sp.toNat < Config.stackBase + 2 then some .stackUnderflow else rangeCheck (s.sp.toNat - 2) 2

/-- The check that an 8 by `n` rectangle at column `x0` and row `y0` lies in the grid, or `n` is 0 (R188). -/
def gridCheck (x0 y0 n : Nat) : Option FaultCode :=
  if 0 < n ∧ (x0 + 7 > Config.displayW - 1 ∨ y0 + n - 1 > Config.displayH - 1) then some .displayRange else none

/-- The checks of `DXYN`, memory first (R186, R206). -/
def spriteCheck (x y : Reg) (n : Nibble) (s : State) : Option FaultCode :=
  (rangeCheck (effAddr s 0) n.toNat).or (gridCheck (readV s x).toNat (readV s y).toNat n.toNat)

/-- The BoundsError an instruction raises in a state, if any (R201); the instructions not named there raise none (R202). -/
def boundsFault : Instr → State → Option FaultCode
  | .ret, s => popCheck s
  | .call _, s => pushCheck s
  | .ldB _, s => rangeCheck (effAddr s 0) 3
  | .storeRegs x, s => rangeCheck (effAddr s 0) (x.val + 1)
  | .loadRegs x, s => rangeCheck (effAddr s 0) (x.val + 1)
  | .drw x y n, s => spriteCheck x y n s
  | .scd _, _ | .cls, _ | .scr, _ | .scl, _ | .exit, _ | .low, _ | .high, _ | .sys _, _ => none
  | .jp _, _ | .seImm _ _, _ | .sneImm _ _, _ | .seReg _ _ _, _ | .sneReg _ _ _, _ | .jpV0 _, _ => none
  | .ldImm _ _, _ | .addImm _ _, _ | .rnd _ _, _ => none
  | .ldReg _ _, _ | .orReg _ _, _ | .andReg _ _, _ | .xorReg _ _, _ | .addReg _ _, _ | .subReg _ _, _
  | .shrReg _ _, _ | .subnReg _ _, _ | .shlReg _ _, _ => none
  | .ldI _, _ | .addI _, _ | .ldF _, _ => none
  | .skp _, _ | .sknp _, _ | .ldVxDt _, _ | .ldVxK _, _ | .ldDtVx _, _ | .ldStVx _, _ => none
  | .illegal8 _ _ _, _ | .illegalE _ _, _ | .illegalF _ _, _ => none

/-- The execute stage of an instruction that checks before it writes: the fault with the opcode in `FINFO` (R201, R204), or
the instruction's effect `t`. -/
def guarded (i : Instr) (s t : State) : Host.Outcome State Fault Refusal :=
  match boundsFault i s with
  | some code => .next (takeFault code (encode i) s)
  | none => .next t

/-- The execute stage of an illegal word: DecodeError, with the opcode in `FINFO` (R203). -/
def raiseDecode (i : Instr) (s : State) : State := takeFault .decode (encode i) s

end Sys2Proof.Machine
end

