-- ==== Sys2Proof/Machine/Cycle.lean ====
section
/-! DEFINITION. The stages of one cycle around the execute stage (spec/70_reset_and_hazards.md R250): the fetch, the advance of
`PC`, the timer tick, the halted cycle. Machine/Step.lean puts them together. -/

namespace Sys2Proof.Machine

/-- The opcode at `PC` (R53), or none where `PC` is above 4094 (R25, R201). -/
def fetchOpcode (s : State) : Option Word :=
  if s.pc.toNat > Config.memSize - 2 then none
  else some (bigEndian (memRead s s.pc.toNat) (memRead s (s.pc.toNat + 1)))

/-- Where the next cycle fetches: `PC`, or the entry point 0x200 where `PC` cannot be fetched from (entry 12). -/
def fetchAddress (s : State) : Word := if s.pc.toNat > Config.memSize - 2 then Config.resetPc else s.pc

/-- The cycle of a halted core: nothing happens, and there is no beep (R207, R250). -/
def haltedCycle (s : State) : State := { s with beep := false }

/-- A fetch outside memory: `PC` is kept and recorded, there is no tick (R204) and so no beep (R40). -/
def fetchFault (s : State) : State := takeFault .fetchRange s.pc { s with beep := false }

/-- `pc <- (PC + 2) mod 65536`, before the execute stage (R24, R250); no beep yet in this cycle (R40). -/
def advance (s : State) : State := { s with pc := s.pc + 2, beep := false }

/-- One step of a timer: it stops at 0 (R226). -/
def countDown (t : Byte) : Byte := if t = 0 then 0 else t - 1

/-- The timer tick (R226): `BEEP` is 1 exactly when `ST` is 1 before the decrement (R225). -/
def tick (s : State) : State := { s with dt := countDown s.dt, st := countDown s.st, beep := s.st == 1 }

/-- The end of the cycle in which `i` was executed from the advanced state `s`: the tick, unless `i` raised a BoundsError
there (R204, R226, R250). -/
def finishCycle (i : Instr) (s : State) : Host.Outcome State Fault Refusal → Host.Outcome State Fault Refusal
  | .next t => .next (if (boundsFault i s).isSome then t else tick t)
  | .fault r => .fault r
  | .refused r => .refused r

end Sys2Proof.Machine
end

