-- ==== Sys2Proof/Machine/Flags.lean ====
section
/-! DEFINITION. The values that VF receives as a flag (spec/10_state.md R21, R36, spec/43_alu.md R155 to R159). -/

namespace Sys2Proof.Machine

/-- A flag as the byte VF holds. -/
def flagByte (b : Bool) : Byte := if b then 1 else 0

/-- `V[15] <- flag`. -/
def writeFlag (b : Bool) (s : State) : State := writeV VF (flagByte b) s

/-- The carry of `8XY4`: the sum in the integers is above 255 (R155). -/
def carryFlag (a b : Byte) : Bool := decide (a.toNat + b.toNat > 255)

/-- The flag of `8XY5` and `8XY7`: no borrow, the minuend is at least the subtrahend (R156, R158). -/
def noBorrowFlag (minuend subtrahend : Byte) : Bool := decide (minuend.toNat ≥ subtrahend.toNat)

/-- The bit `8XY6` shifts out: bit 0 (R157). -/
def shrFlag (a : Byte) : Bool := a.getLsbD 0

/-- The bit `8XYE` shifts out: bit 7 (R159). -/
def shlFlag (a : Byte) : Bool := a.getLsbD 7

end Sys2Proof.Machine
end

