-- ==== Sys2Proof/Machine/Alu.lean ====
section
/-! DEFINITION. The `8XY*` family (spec/43_alu.md R150 to R162). The statements of each rule run in the rule's order and each
right-hand side is read when its statement runs (R13, decision D1), which decides the results where `x` or `y` is 15. -/

namespace Sys2Proof.Machine

/-- `LD Vx, Vy`, R151. -/
def execLdReg (x y : Reg) (s : State) : Host.Outcome State Fault Refusal := .next (writeV x (readV s y) s)

/-- `OR Vx, Vy`, R152: VF is not written. -/
def execOrReg (x y : Reg) (s : State) : Host.Outcome State Fault Refusal := .next (writeV x (readV s x ||| readV s y) s)

/-- `AND Vx, Vy`, R153: VF is not written. -/
def execAndReg (x y : Reg) (s : State) : Host.Outcome State Fault Refusal := .next (writeV x (readV s x &&& readV s y) s)

/-- `XOR Vx, Vy`, R154: VF is not written. -/
def execXorReg (x y : Reg) (s : State) : Host.Outcome State Fault Refusal := .next (writeV x (readV s x ^^^ readV s y) s)

/-- `ADD Vx, Vy`, R155: the sum, then the carry from the same operands. -/
def execAddReg (x y : Reg) (s : State) : Host.Outcome State Fault Refusal :=
  .next (writeFlag (carryFlag (readV s x) (readV s y)) (writeV x (readV s x + readV s y) s))

/-- `V[x] <- (V[x] - V[y]) mod 256`, the second statement of R156. -/
def subtractInto (x y : Reg) (s : State) : State := writeV x (readV s x - readV s y) s

/-- `SUB Vx, Vy`, R156: the flag first, then the difference of the registers as the flag write left them. -/
def execSubReg (x y : Reg) (s : State) : Host.Outcome State Fault Refusal :=
  .next (subtractInto x y (writeFlag (noBorrowFlag (readV s x) (readV s y)) s))

/-- The second statement of R157, for either value of `SHR_DEST`. -/
def shiftRightInto (dest : ShrDest) (x y : Reg) (s : State) : State :=
  match dest with
  | .y => writeV y (readV s x >>> 1) s
  | .x => writeV x (readV s x >>> 1) s

/-- `8XY6` for either value of `SHR_DEST` (R8, R157): the flag first, then the shift of the register as the flag write left
it. -/
def shiftRight (dest : ShrDest) (x y : Reg) (s : State) : State :=
  shiftRightInto dest x y (writeFlag (shrFlag (readV s x)) s)

/-- `SHR Vx, Vy`, R157. -/
def execShrReg (x y : Reg) (s : State) : Host.Outcome State Fault Refusal := .next (shiftRight Config.shrDest x y s)

/-- `SUBN Vx, Vy`, R158: the difference, then the flag from the same operands. -/
def execSubnReg (x y : Reg) (s : State) : Host.Outcome State Fault Refusal :=
  .next (writeFlag (noBorrowFlag (readV s y) (readV s x)) (writeV x (readV s y - readV s x) s))

/-- `V[x] <- (V[x] << 1) mod 256`, the second statement of R159. -/
def shiftLeftInto (x : Reg) (s : State) : State := writeV x (readV s x <<< 1) s

/-- `SHL Vx, Vy`, R159, conflict C5: the flag first; `y` is not used. -/
def execShlReg (x _y : Reg) (s : State) : Host.Outcome State Fault Refusal :=
  .next (shiftLeftInto x (writeFlag (shlFlag (readV s x)) s))

/-- `8XYn` with an illegal `n`, R160. -/
def execIllegal8 (x y : Reg) (n : Nibble) (s : State) : Host.Outcome State Fault Refusal :=
  .next (raiseDecode (.illegal8 x y n) s)

end Sys2Proof.Machine
end

