-- ==== Sys2Proof/Machine/Control.lean ====
section
/-! DEFINITION. Jumps, the call and the conditional skips (spec/41_jump_call_skip.md R120 to R130). `PC` is the address of the
instruction plus 2 when a meaning runs (R120). -/

namespace Sys2Proof.Machine

/-- `JP nnn`, R121. -/
def execJp (nnn : Addr12) (s : State) : Host.Outcome State Fault Refusal := .next (setPc (nnn.setWidth 16) s)

/-- `CALL nnn`, R122. -/
def execCall (nnn : Addr12) (s : State) : Host.Outcome State Fault Refusal :=
  guarded (.call nnn) s (setPc (nnn.setWidth 16) (push16 s.pc s))

/-- `SE Vx, nn`, R123. -/
def execSeImm (x : Reg) (nn : Byte) (s : State) : Host.Outcome State Fault Refusal := .next (skipIf (readV s x == nn) s)

/-- `SNE Vx, nn`, R124. -/
def execSneImm (x : Reg) (nn : Byte) (s : State) : Host.Outcome State Fault Refusal := .next (skipIf (readV s x != nn) s)

/-- `SE Vx, Vy`, R125; the low nibble is ignored (R77). -/
def execSeReg (x y : Reg) (_n : Nibble) (s : State) : Host.Outcome State Fault Refusal :=
  .next (skipIf (readV s x == readV s y) s)

/-- `SNE Vx, Vy`, R126; the low nibble is ignored (R77). -/
def execSneReg (x y : Reg) (_n : Nibble) (s : State) : Host.Outcome State Fault Refusal :=
  .next (skipIf (readV s x != readV s y) s)

/-- `JP V0, nnn`, R127, conflict C4: relative to the advanced `PC`. -/
def execJpV0 (nnn : Addr12) (s : State) : Host.Outcome State Fault Refusal :=
  .next (setPc (s.pc + (readV s 0).setWidth 16 + nnn.setWidth 16) s)

end Sys2Proof.Machine
end

