-- ==== Sys2Proof/Machine/Display.lean ====
section
/-! DEFINITION. The display buffer: pixels, the clear, the three scrolls (spec/40_system_display_control.md R102, R107) and the
sprite blitter (spec/45_draw.md R185 to R190). -/

namespace Sys2Proof.Machine

/-- `Px[c, r]`; a cell outside the grid reads 0 and is never addressed by an instruction (R188). -/
def Display.px (d : Display) (c r : Nat) : Bool :=
  if h : r < 32 ∧ c < 64 then (d[r]'h.1)[c]'h.2 else false

/-- `Px[c, r] <- b`; a cell outside the grid is not written (R188: never wrapped, never clipped into the grid). -/
def Display.setPx (d : Display) (c r : Nat) (b : Bool) : Display :=
  if h : r < 32 ∧ c < 64 then d.set r ((d[r]'h.1).set c b h.2) h.1 else d

/-- The grid whose cell in column `c` and row `r` is `f c r`. -/
def Display.build (f : Nat → Nat → Bool) : Display :=
  Vector.ofFn fun r : Fin 32 => Vector.ofFn fun c : Fin 64 => f c.val r.val

/-- The grid with every cell 0 (R102). -/
def Display.clear : Display := Display.build fun _ _ => false

/-- `scroll_down(k)` (R107). -/
def Display.scrollDown (k : Nat) (d : Display) : Display :=
  Display.build fun c r => if k ≤ r then d.px c (r - k) else false

/-- `scroll_right(k)` (R107). -/
def Display.scrollRight (k : Nat) (d : Display) : Display :=
  Display.build fun c r => if k ≤ c then d.px (c - k) r else false

/-- `scroll_left(k)` (R107). -/
def Display.scrollLeft (k : Nat) (d : Display) : Display :=
  Display.build fun c r => if c + k ≤ Config.displayW - 1 then d.px (c + k) r else false

/-- The picture as it is being drawn, and the collision seen so far. -/
abbrev Blit := Display × Bool

/-- One column of a sprite row (R186): bit 7 of the row byte is column 0 (R187); a bit that is 0 neither reads nor writes. -/
def blitPixel (b : Byte) (x0 row : Nat) (acc : Blit) (col : Nat) : Blit :=
  if b.getLsbD (7 - col) then
    (acc.1.setPx (x0 + col) row (!acc.1.px (x0 + col) row), acc.2 || acc.1.px (x0 + col) row)
  else acc

/-- One sprite row: columns 0 to 7 in ascending order. -/
def blitRow (b : Byte) (x0 row : Nat) (acc : Blit) : Blit := (List.range 8).foldl (blitPixel b x0 row) acc

/-- `n` sprite rows from memory address `a`, in ascending order (R185, R186). -/
def blitSprite (m : Memory) (a x0 y0 n : Nat) (d : Display) : Blit :=
  (List.range n).foldl (fun acc row => blitRow (m.read (a + row)) x0 (y0 + row) acc) (d, false)

/-- Change the picture and set `RP` (R33): the end of every drawing, clear and scroll operation. -/
def paint (d : Display) (s : State) : State := setRepaint { s with px := d }

end Sys2Proof.Machine
end

