-- ==== Sys2Proof/Machine/Draw.lean ====
section
/-! DEFINITION. The sprite instruction (spec/45_draw.md R185 to R191). -/

namespace Sys2Proof.Machine

/-- The picture and the collision of `DXYN` (R186): the coordinates are the register values before VF is written (R189). -/
def spriteOf (x y : Reg) (n : Nibble) (s : State) : Blit :=
  blitSprite s.mem (effAddr s 0) (readV s x).toNat (readV s y).toNat n.toNat s.px

/-- `DRW Vx, Vy, n`, R186: VF is the collision, 0 when there is none (R189); `RP` is set, also for `n = 0` (R190). -/
def execDrw (x y : Reg) (n : Nibble) (s : State) : Host.Outcome State Fault Refusal :=
  guarded (.drw x y n) s (paint (spriteOf x y n s).1 (writeFlag (spriteOf x y n s).2 s))

end Sys2Proof.Machine
end

