-- ==== Sys2Proof/Machine/Immediate.lean ====
section
/-! DEFINITION. The register-immediate instructions and the random byte (spec/42_register_immediate.md R140 to R144). -/

namespace Sys2Proof.Machine

/-- `LD Vx, nn`, R141. -/
def execLdImm (x : Reg) (nn : Byte) (s : State) : Host.Outcome State Fault Refusal := .next (writeV x nn s)

/-- `ADD Vx, nn`, R142: no carry is recorded. -/
def execAddImm (x : Reg) (nn : Byte) (s : State) : Host.Outcome State Fault Refusal := .next (writeV x (readV s x + nn) s)

/-- The effect of `CXNN` for a given random byte (R143). -/
def randomInto (byte : Byte) (x : Reg) (nn : Byte) (s : State) : State := writeV x (byte &&& nn) s

/-- `RND Vx, nn`, R143: a fresh free byte for each execution (R41). -/
def execRnd (x : Reg) (nn : Byte) (s : State) : Host.Outcome State Fault Refusal :=
  .next (countDraw (randomInto (drawnByte s) x nn s))

end Sys2Proof.Machine
end

