-- ==== Sys2Proof/Machine/Index.lean ====
section
/-! DEFINITION. The address register and the memory transfers (spec/44_index_memory.md R170 to R178). -/

namespace Sys2Proof.Machine

/-- `LD I, nnn`, R171. -/
def execLdI (nnn : Addr12) (s : State) : Host.Outcome State Fault Refusal := .next (setI nnn.toNat s)

/-- `I <- (I + V[x]) mod m`, for any value of `I_ADD_MODULUS` (R8, R172). -/
def addToIndex (m : Nat) (x : Reg) (s : State) : State := setI ((s.i.toNat + (readV s x).toNat) % m) s

/-- `ADD I, Vx`, R172: VF is not written. -/
def execAddI (x : Reg) (s : State) : Host.Outcome State Fault Refusal := .next (addToIndex Config.iAddModulus x s)

/-- `LD F, Vx`, R173: the whole byte is multiplied (decision D29). -/
def execLdF (x : Reg) (s : State) : Host.Outcome State Fault Refusal :=
  .next (setI ((readV s x).toNat * Config.glyphSize) s)

/-- The decimal digits of a byte, hundreds first (R174). -/
def bcdDigits (b : Byte) : List Byte :=
  [BitVec.ofNat 8 (b.toNat / 100), BitVec.ofNat 8 (b.toNat / 10 % 10), BitVec.ofNat 8 (b.toNat % 10)]

/-- `LD B, Vx`, R174. -/
def execLdB (x : Reg) (s : State) : Host.Outcome State Fault Refusal :=
  guarded (.ldB x) s { s with mem := s.mem.writeBytes (effAddr s 0) (bcdDigits (readV s x)) }

/-- `for i in 0..k-1: MemWrite(I + i, 1, V[i])`, ascending (R175). -/
def storeUpTo : Nat → State → State
  | 0, s => s
  | k + 1, s => memWrite (effAddr (storeUpTo k s) k) (readV (storeUpTo k s) (Fin.ofNat 16 k)) (storeUpTo k s)

/-- `LD [I], Vx`, R175: `I` is unchanged (decision D25). -/
def execStoreRegs (x : Reg) (s : State) : Host.Outcome State Fault Refusal :=
  guarded (.storeRegs x) s (storeUpTo (x.val + 1) s)

/-- `for i in 0..k-1: V[i] <- MemRead(I + i, 1)`, ascending (R176). -/
def loadUpTo : Nat → State → State
  | 0, s => s
  | k + 1, s => writeV (Fin.ofNat 16 k) (memRead (loadUpTo k s) (effAddr (loadUpTo k s) k)) (loadUpTo k s)

/-- `LD Vx, [I]`, R176: `I` is unchanged (decision D25). -/
def execLoadRegs (x : Reg) (s : State) : Host.Outcome State Fault Refusal :=
  guarded (.loadRegs x) s (loadUpTo (x.val + 1) s)

end Sys2Proof.Machine
end

