-- ==== Sys2Proof/Machine/KeysTimers.lean ====
section
/-! DEFINITION. The inert key opcodes, timer access and the illegal words of the `0xE` and `0xF` families
(spec/46_keys_timers.md R192 to R199). -/

namespace Sys2Proof.Machine

/-- `SKP Vx`, R192: a no-op; the keys are not read. -/
def execSkp (_x : Reg) (s : State) : Host.Outcome State Fault Refusal := .next s

/-- `SKNP Vx`, R193: a no-op; the keys are not read. -/
def execSknp (_x : Reg) (s : State) : Host.Outcome State Fault Refusal := .next s

/-- `LD Vx, DT`, R194: the value before this cycle's tick (R198). -/
def execLdVxDt (x : Reg) (s : State) : Host.Outcome State Fault Refusal := .next (writeV x s.dt s)

/-- `LD Vx, K`, R195: a no-op; it does not wait. -/
def execLdVxK (_x : Reg) (s : State) : Host.Outcome State Fault Refusal := .next s

/-- `LD DT, Vx`, R196. -/
def execLdDtVx (x : Reg) (s : State) : Host.Outcome State Fault Refusal := .next (setDt (readV s x) s)

/-- `LD ST, Vx`, R197. -/
def execLdStVx (x : Reg) (s : State) : Host.Outcome State Fault Refusal := .next (setSt (readV s x) s)

/-- `EXnn` with an illegal `nn`, R199. -/
def execIllegalE (x : Reg) (nn : Byte) (s : State) : Host.Outcome State Fault Refusal :=
  .next (raiseDecode (.illegalE x nn) s)

/-- `FXnn` with an illegal `nn`, R199. -/
def execIllegalF (x : Reg) (nn : Byte) (s : State) : Host.Outcome State Fault Refusal :=
  .next (raiseDecode (.illegalF x nn) s)

end Sys2Proof.Machine
end

