-- ==== Sys2Proof/Machine/System.lean ====
section
/-! DEFINITION. The `0x0` family (spec/40_system_display_control.md R100 to R111). Each meaning is the execute stage, run with
`PC` already advanced (R14). -/

namespace Sys2Proof.Machine

/-- `SCD n`, R101. -/
def execScd (n : Nibble) (s : State) : Host.Outcome State Fault Refusal := .next (paint (s.px.scrollDown n.toNat) s)

/-- `CLS`, R102. -/
def execCls (s : State) : Host.Outcome State Fault Refusal := .next (paint Display.clear s)

/-- `RET`, R103, conflict C1: one decrement of `SP`. -/
def execRet (s : State) : Host.Outcome State Fault Refusal := guarded .ret s (setPc (pop16 s).1 (pop16 s).2)

/-- `SCR`, R104. -/
def execScr (s : State) : Host.Outcome State Fault Refusal := .next (paint (s.px.scrollRight Config.scrollH) s)

/-- `SCL`, R105. -/
def execScl (s : State) : Host.Outcome State Fault Refusal := .next (paint (s.px.scrollLeft Config.scrollH) s)

/-- `EXIT`, R106; the tick of the same cycle still happens. -/
def execExit (s : State) : Host.Outcome State Fault Refusal := .next (halt s)

/-- `LOW`, R108: a no-op. -/
def execLow (s : State) : Host.Outcome State Fault Refusal := .next s

/-- `HIGH`, R109: a no-op. -/
def execHigh (s : State) : Host.Outcome State Fault Refusal := .next s

/-- `SYS nnn`, R110: a no-op, `nnn` ignored. -/
def execSys (_nnn : Addr12) (s : State) : Host.Outcome State Fault Refusal := .next s

end Sys2Proof.Machine
end

