-- ==== Sys2Proof/Machine/Step.lean ====
section
/-! DEFINITION. One cycle, the step of the machine (spec/70_reset_and_hazards.md R250), and the placing of one instruction
where the next cycle fetches it. -/

namespace Sys2Proof.Machine

/-- The execute stage and the end of the cycle for the instruction `i`, from the state `s` whose `PC` is already advanced. -/
def executeCycle (i : Instr) (s : State) : Host.Outcome State Fault Refusal := finishCycle i s (exec i s)

/-- One cycle (R250). -/
def step (s : State) : Host.Outcome State Fault Refusal :=
  if s.run then
    match fetchOpcode s with
    | none => .next (fetchFault s)
    | some w => executeCycle (decodeWord w) (advance s)
  else .next (haltedCycle s)

/-- `s` with one instruction stored, high byte first, where the next cycle fetches it, and running (entry 12). In a running
state whose `PC` can be fetched from, only the two bytes of memory change. -/
def State.withFetchWord (s : State) (nbits w : Nat) : State :=
  let word : Word := BitVec.ofNat 16 (w % 2 ^ nbits)
  let a := fetchAddress s
  { s with pc := a, run := true, mem := s.mem.writeBytes a.toNat [highByte word, lowByte word] }

end Sys2Proof.Machine
end

