-- ==== Sys2Proof/Machine/Ports.lean ====
section
/-! DEFINITION. The host's moves between cycles (spec/60_exceptions.md R230 to R236, spec/10_state.md R47,
spec/70_reset_and_hazards.md R242 to R244). None of them is a step of the core. -/

namespace Sys2Proof.Machine

/-- `load(offset, bytes)` (R66, R230): all of the bytes, or none where they do not fit. -/
def load (offset : Nat) (bytes : List Byte) (s : State) : Option State :=
  if offset + bytes.length > Config.memSize then none else some { s with mem := s.mem.writeBytes offset bytes }

/-- Reset, then the font, then the program (R242): the state in which the first cycle runs (R46), or none where the program
does not fit (R66). The font is the host's 80 bytes (R7, decision D27). -/
def boot (font : Vector Byte 80) (program : List Byte) : Option State :=
  (load Config.fontBase font.toList State.reset).bind (load Config.progBase program)

/-- `RP <- 0`, by the renderer between cycles (R231). -/
def clearRepaint (s : State) : State := { s with rp := false }

/-- The host drives the key port (R232). -/
def driveKeys (k : Vector Bool 16) (s : State) : State := { s with keys := k }

/-- The read-only snapshot of the render interface: 2048 cells, row-major (R38, R231). -/
def renderSnapshot (s : State) : List Bool :=
  (List.range (Config.displayW * Config.displayH)).map fun k => s.px.px (k % Config.displayW) (k / Config.displayW)

end Sys2Proof.Machine
end

