-- ==== Sys2Proof/Safety.lean ====
section
/-! DEFINITION. The terms claims use: how a run ends (spec/70_reset_and_hazards.md R251), the invariant of every reachable
state, reachability with the host's moves (spec/60_exceptions.md R236), and which instruction may write which state
(spec/10_state.md R22 to R38). -/

namespace Sys2Proof.Machine

/-! ## How a run ends -/

/-- The core is halted (R17, R207). -/
def Halted (s : State) : Prop := s.run = false

/-- The core is faulted (R17): never a good final state. -/
def Faulted (s : State) : Prop := s.fault ≠ .none

/-- The good end of a run (R251). -/
def GoodEnd (s : State) : Prop := Halted s ∧ ¬Faulted s

/-! ## The invariant -/

/-- What holds of every state a run reaches. -/
structure Inv (s : State) : Prop where
  /-- Memory is in its canonical form. -/
  memCanonical : s.mem.wf = true
  /-- `STACK_BASE <= SP` (R29). -/
  stackAbove : Config.stackBase ≤ s.sp.toNat
  /-- `SP <= STACK_LIMIT` (R29). -/
  stackBelow : s.sp.toNat ≤ Config.stackLimit
  /-- `SP - STACK_BASE` is even (R29). -/
  stackEven : (s.sp.toNat - Config.stackBase) % 2 = 0
  /-- `I` is an address (R27). -/
  indexBelow : s.i.toNat < Config.memSize
  /-- A faulted core is halted (R17). -/
  faultHalts : s.run = true → s.fault = .none
  /-- `FINFO` is 0 until a fault (R35). -/
  noFaultNoInfo : s.fault = .none → s.finfo = 0

/-- The states between reset and the first cycle: reset, then any loads that fit (R230, R236, R242). -/
inductive Loaded : State → Prop where
  | reset : Loaded State.reset
  | load (offset : Nat) (bytes : List Byte) (s t : State) (hs : Loaded s) (h : load offset bytes s = some t) : Loaded t

/-- The states of the runs of R251: loaded, then cycles and the host's moves between them (R236). A reset at a later cycle
boundary (R241) starts again from `Loaded.reset`. -/
inductive Reachable : State → Prop where
  | started (s : State) (h : Loaded s) : Reachable s
  | cycled (s t : State) (hs : Reachable s) (h : step s = .next t) : Reachable t
  | repaintCleared (s : State) (hs : Reachable s) : Reachable (clearRepaint s)
  | keysDriven (k : Vector Bool 16) (s : State) (hs : Reachable s) : Reachable (driveKeys k s)

/-! ## What a store leaves to be fetched -/

/-- The byte at `c` once `bytes` have been stored at ascending addresses from `a` over the memory `m` (R57). -/
def storedOver (m : Memory) (a : Nat) (bytes : List Byte) (c : Nat) : Byte :=
  if a ≤ c ∧ c < a + bytes.length then bytes.getD (c - a) 0 else m.read c

/-- The opcode at `p` once `bytes` have been stored from `a` over `m`: the byte at the lower address is the high one (R53,
R64). -/
def opcodeOver (m : Memory) (a : Nat) (bytes : List Byte) (p : Nat) : Nat :=
  (storedOver m a bytes p).toNat * 256 + (storedOver m a bytes (p + 1)).toNat

end Sys2Proof.Machine

namespace Sys2Proof

open Sys2Proof.Machine

/-! ## Which instruction writes what -/

/-- Whether an instruction may write `V[r]` (the table of R22, with `SHR_DEST` at its value). -/
def Instr.writesV (i : Instr) (r : Reg) : Bool :=
  match i with
  | .ldImm x _ | .addImm x _ | .rnd x _ | .ldReg x _ | .orReg x _ | .andReg x _ | .xorReg x _ | .ldVxDt x => r == x
  | .addReg x _ | .subReg x _ | .subnReg x _ | .shlReg x _ => r == x || r == VF
  | .shrReg _ y => r == y || r == VF
  | .drw _ _ _ => r == VF
  | .loadRegs x => decide (r ≤ x)
  | .scd _ | .cls | .ret | .scr | .scl | .exit | .low | .high | .sys _ => false
  | .jp _ | .call _ | .seImm _ _ | .sneImm _ _ | .seReg _ _ _ | .sneReg _ _ _ | .jpV0 _ => false
  | .ldI _ | .addI _ | .ldF _ | .ldB _ | .storeRegs _ => false
  | .skp _ | .sknp _ | .ldVxK _ | .ldDtVx _ | .ldStVx _ => false
  | .illegal8 _ _ _ | .illegalE _ _ | .illegalF _ _ => false

/-- Whether an instruction stores to the address `a` (R57, R177): the stack slot of `2NNN`, the bytes from the effective
address for `FX33` and `FX55`. -/
def Instr.storesAt (i : Instr) (s : State) (a : Nat) : Bool :=
  match i with
  | .call _ => decide (s.sp.toNat ≤ a ∧ a < s.sp.toNat + 2)
  | .ldB _ => decide (effAddr s 0 ≤ a ∧ a < effAddr s 3)
  | .storeRegs x => decide (effAddr s 0 ≤ a ∧ a ≤ effAddr s x.val)
  | .scd _ | .cls | .ret | .scr | .scl | .exit | .low | .high | .sys _ => false
  | .jp _ | .seImm _ _ | .sneImm _ _ | .seReg _ _ _ | .sneReg _ _ _ | .jpV0 _ => false
  | .ldImm _ _ | .addImm _ _ | .rnd _ _ => false
  | .ldReg _ _ | .orReg _ _ | .andReg _ _ | .xorReg _ _ | .addReg _ _ | .subReg _ _ | .shrReg _ _ | .subnReg _ _
  | .shlReg _ _ => false
  | .ldI _ | .addI _ | .ldF _ | .loadRegs _ | .drw _ _ _ => false
  | .skp _ | .sknp _ | .ldVxDt _ | .ldVxK _ | .ldDtVx _ | .ldStVx _ => false
  | .illegal8 _ _ _ | .illegalE _ _ | .illegalF _ _ => false

/-- Whether an instruction draws, clears or scrolls (R33, R38). -/
def Instr.paints : Instr → Bool
  | .scd _ | .cls | .scr | .scl | .drw _ _ _ => true
  | .ret | .exit | .low | .high | .sys _ => false
  | .jp _ | .call _ | .seImm _ _ | .sneImm _ _ | .seReg _ _ _ | .sneReg _ _ _ | .jpV0 _ => false
  | .ldImm _ _ | .addImm _ _ | .rnd _ _ => false
  | .ldReg _ _ | .orReg _ _ | .andReg _ _ | .xorReg _ _ | .addReg _ _ | .subReg _ _ | .shrReg _ _ | .subnReg _ _
  | .shlReg _ _ => false
  | .ldI _ | .addI _ | .ldF _ | .ldB _ | .storeRegs _ | .loadRegs _ => false
  | .skp _ | .sknp _ | .ldVxDt _ | .ldVxK _ | .ldDtVx _ | .ldStVx _ => false
  | .illegal8 _ _ _ | .illegalE _ _ | .illegalF _ _ => false

/-- Whether an instruction may write `PC` in its execute stage (R24, R130). -/
def Instr.transfers : Instr → Bool
  | .ret | .jp _ | .call _ | .seImm _ _ | .sneImm _ _ | .seReg _ _ _ | .sneReg _ _ _ | .jpV0 _ => true
  | .scd _ | .cls | .scr | .scl | .exit | .low | .high | .sys _ | .drw _ _ _ => false
  | .ldImm _ _ | .addImm _ _ | .rnd _ _ => false
  | .ldReg _ _ | .orReg _ _ | .andReg _ _ | .xorReg _ _ | .addReg _ _ | .subReg _ _ | .shrReg _ _ | .subnReg _ _
  | .shlReg _ _ => false
  | .ldI _ | .addI _ | .ldF _ | .ldB _ | .storeRegs _ | .loadRegs _ => false
  | .skp _ | .sknp _ | .ldVxDt _ | .ldVxK _ | .ldDtVx _ | .ldStVx _ => false
  | .illegal8 _ _ _ | .illegalE _ _ | .illegalF _ _ => false

end Sys2Proof
end

