-- ==== Sys2Proof/Certificates/Slice0/Obligations.lean ====
section
/-! DEFINITION. The statements about the model, for the provers. Each docstring says what the statement states and the rules of
spec/ it comes from. -/

open Sys2Proof Sys2Proof.Machine

/-- For every well-formed instruction, with every operand at every value its field admits, the decoder reads from its
word exactly that instruction. (R71, R72, R75; derived.) -/
def Obligations.DecodeOfEncodeIsTheInstruction : Prop :=
  ∀ i : Instr, i.wellFormed = true → decodeWord (encode i) = i

/-- For every one of the 65536 words, the decoder answers a well-formed instruction whose encoding is that word, so no
two words stand for the same instruction and no bit is dropped. (R74, R81, R82; derived.) -/
def Obligations.EncodeOfDecodeIsTheWord : Prop :=
  ∀ w : Word, (decodeWord w).wellFormed = true ∧ encode (decodeWord w) = w

/-- For every word, the row of the instruction the decoder answers is the first row of the opcode map, in its order,
whose mask and match select the word. (R74, R75; derived.) -/
def Obligations.DecoderTakesTheFirstMatchingRow : Prop :=
  ∀ w : Word, firstMatch w = some (decodeWord w).rowIndex

/-- A word decodes to an illegal row exactly when its dispatch nibble is 8 and its low nibble is 8 to 0xD or 0xF, or
it is 0xE and the low byte is neither 0x9E nor 0xA1, or it is 0xF and the low byte is none of the nine listed. (R79;
derived.) -/
def Obligations.IllegalWordsAreThoseOfTheThreeFamilies : Prop :=
  ∀ w : Word, (decodeWord w).illegal = true ↔
    (w.toNat / 4096 = 0x8 ∧ w.toNat % 16 ∈ [0x8, 0x9, 0xA, 0xB, 0xC, 0xD, 0xF]) ∨
    (w.toNat / 4096 = 0xE ∧ w.toNat % 256 ∉ [0x9E, 0xA1]) ∨
    (w.toNat / 4096 = 0xF ∧ w.toNat % 256 ∉ [0x07, 0x0A, 0x15, 0x18, 0x1E, 0x29, 0x33, 0x55, 0x65])

/-- Twelve words written out in the spec decode to the instruction the spec names for each. (R76, R77, R89; derived.)
-/
def Obligations.WorkedWordsDecodeAsTheSpecSays : Prop :=
  decodeWord 0x6A05 = .ldImm 0xA 0x05 ∧ decodeWord 0x8124 = .addReg 1 2 ∧ decodeWord 0xD125 = .drw 1 2 5 ∧
    decodeWord 0xF133 = .ldB 1 ∧ decodeWord 0x9999 = .sneReg 9 9 9 ∧ decodeWord 0x8129 = .illegal8 1 2 9 ∧
    decodeWord 0x00C3 = .scd 3 ∧ decodeWord 0x01E0 = .sys 0x1E0 ∧ decodeWord 0xE19F = .illegalE 1 0x9F ∧
    decodeWord 0xF10A = .ldVxK 1 ∧ decodeWord 0x00E0 = .cls ∧ decodeWord 0x5127 = .seReg 1 2 7

/-- When the core runs, PC is at most 4094 and the bytes at PC and PC + 1 decode to i, the cycle is the execute stage
of i on the state with PC advanced by 2 and BEEP cleared, followed by the timer tick unless i raises a BoundsError
there. That the cycle starts with BEEP cleared is the model's device for the output of R40 (log entry 6, DESIGN CHOICE
and DEDUCED), not a clause of R53 or R250. (R40, R53, R250; derived.) -/
def Obligations.StepRunsTheDecodedInstruction : Prop :=
  ∀ (s t : State) (i : Instr) (rest : List Byte), s.run = true → s.pc.toNat ≤ 4094 →
    decodeBytes [s.mem.read s.pc.toNat, s.mem.read (s.pc.toNat + 1)] = .ok (i, rest) →
    exec i { s with pc := s.pc + 2, beep := false } = .next t →
    step s = .next (if (boundsFault i { s with pc := s.pc + 2, beep := false }).isSome then t else tick t)

/-- In every state, the execute stage of every instruction answers a next state (its effect or its fault entry), and
every cycle answers a next state. That a fault entry and a halted cycle are next states, so that the model's own type
of faults is empty, is log entry 8 (DEDUCED from R203, R204 and R207); R202's 'completes' is said of the opcodes that
cannot fault, and OnlyTheListedInstructionsFault states that. (R202, R203, R204, R207; derived.) -/
def Obligations.EveryStepAnswersNext : Prop :=
  (∀ (i : Instr) (s : State), ∃ t, exec i s = .next t) ∧ ∀ s : State, ∃ t, step s = .next t

/-- With RUN = 0 a cycle changes no state and there is no beep; BEEP, which the model holds as a field (log entry 6,
the model's choice), reads 0. (R207, R250; derived.) -/
def Obligations.HaltedCycleChangesOnlyBeep : Prop :=
  ∀ s : State, s.run = false → step s = .next { s with beep := false }

/-- When the core runs and PC is above 4094, the cycle sets RUN to 0, FAULT to FETCH_RANGE and FINFO to PC, keeps PC,
and ends without the timer tick, so without a beep. That a BoundsError skips the tick is the spec's decision D11; that
BEEP reads 0 in a cycle without a tick is the DEDUCED part of log entry 6, from R40. (R40, R201, R204, R206; derived.)
-/
def Obligations.FetchOutsideMemoryFaults : Prop :=
  ∀ s : State, s.run = true → s.pc.toNat > 4094 →
    step s = .next { s with run := false, fault := .fetchRange, finfo := s.pc, beep := false }

/-- When the core runs, the fetched word's execute stage answers t and raises no BoundsError, the cycle answers t with
DT and ST each one lower but not below 0, and BEEP = 1 exactly when ST was 1 before the decrement; nothing else
changes. (R226; stated.) -/
def Obligations.TickEndsACycleWithoutBoundsError : Prop :=
  ∀ (s t : State) (w : Word), s.run = true → fetchOpcode s = some w →
    exec (decodeWord w) { s with pc := s.pc + 2, beep := false } = .next t →
    boundsFault (decodeWord w) { s with pc := s.pc + 2, beep := false } = none →
    ∃ u, step s = .next u ∧ u.dt.toNat = t.dt.toNat - 1 ∧ u.st.toNat = t.st.toNat - 1 ∧
      u.beep = decide (t.st.toNat = 1) ∧ u = { t with dt := u.dt, st := u.st, beep := u.beep }

/-- When the core runs and the fetched word w raises a BoundsError of code c, the cycle leaves the state with PC
advanced, RUN = 0, FAULT = c, FINFO = w and BEEP = 0, and no other change. That no write is made and that the tick is
skipped are the spec's decisions D10 and D11; that BEEP reads 0 in a cycle without a tick is the DEDUCED part of log
entry 6, from R40. (R40, R204, R205; derived.) -/
def Obligations.BoundsErrorSkipsTheTickAndEveryWrite : Prop :=
  ∀ (s : State) (w : Word) (c : FaultCode), s.run = true → fetchOpcode s = some w →
    boundsFault (decodeWord w) { s with pc := s.pc + 2, beep := false } = some c →
    step s = .next { s with pc := s.pc + 2, run := false, fault := c, finfo := w, beep := false }

/-- When the core runs and the fetched word w is illegal, the cycle leaves PC advanced, RUN = 0, FAULT = DECODE, FINFO
= w, the timers ticked and BEEP as the tick gives it, and no other change. That the tick happens is the spec's
decision D11. (R203, R226; derived.) -/
def Obligations.IllegalWordHaltsAfterTheTick : Prop :=
  ∀ (s : State) (w : Word), s.run = true → fetchOpcode s = some w → (decodeWord w).illegal = true →
    ∃ t, step s = .next t ∧ t.dt.toNat = s.dt.toNat - 1 ∧ t.st.toNat = s.st.toNat - 1 ∧
      t = { s with pc := s.pc + 2, run := false, fault := .decode, finfo := w, dt := t.dt, st := t.st,
                   beep := decide (s.st.toNat = 1) }

/-- LD B with I + 2 above 4095, and the register store and load with I + x above 4095, leave every field but RUN,
FAULT and FINFO alone; FINFO is the opcode. The codes and the check before any write are the spec's decisions D10, D12
and D31. (R174, R175, R176, R201; derived.) -/
def Obligations.TransferOutsideMemoryFaults : Prop :=
  ∀ (s : State) (x : Reg),
    (s.i.toNat + 2 > 4095 →
      exec (.ldB x) s = .next { s with run := false, fault := .memRange, finfo := BitVec.ofNat 16 (0xF033 + x.val * 256) }) ∧
    (s.i.toNat + x.val > 4095 →
      exec (.storeRegs x) s =
        .next { s with run := false, fault := .memRange, finfo := BitVec.ofNat 16 (0xF055 + x.val * 256) }) ∧
    (s.i.toNat + x.val > 4095 →
      exec (.loadRegs x) s =
        .next { s with run := false, fault := .memRange, finfo := BitVec.ofNat 16 (0xF065 + x.val * 256) })

/-- For n above 0: with I + n - 1 above 4095 the draw records MEM_RANGE whatever the coordinates; with the bytes in
memory and the 8 by n rectangle not wholly in the grid it records DISPLAY_RANGE. Either way only RUN, FAULT and FINFO
change and FINFO is the opcode. The whole-rectangle check and the order are the spec's decisions D8 and D13. (R186,
R188, R201, R206; derived.) -/
def Obligations.DrawChecksMemoryBeforeDisplay : Prop :=
  ∀ (s : State) (x y : Reg) (n : Nibble), 0 < n.toNat →
    (s.i.toNat + n.toNat - 1 > 4095 →
      exec (.drw x y n) s = .next { s with run := false, fault := .memRange, finfo := encode (.drw x y n) }) ∧
    (s.i.toNat + n.toNat - 1 ≤ 4095 →
      (readV s x).toNat + 7 > 63 ∨ (readV s y).toNat + n.toNat - 1 > 31 →
      exec (.drw x y n) s = .next { s with run := false, fault := .displayRange, finfo := encode (.drw x y n) }) ∧
    (encode (.drw x y n)).toNat = 0xD000 + x.val * 256 + y.val * 16 + n.toNat

/-- NONE to DECODE are 0 to 6 in the order of R201, and no code is 7. The numbers are the spec's decision D12. (R34,
R201; derived.) -/
def Obligations.FaultCodesAreNumberedAsTheSpecNumbersThem : Prop :=
  (FaultCode.code .none).toNat = 0 ∧ (FaultCode.code .fetchRange).toNat = 1 ∧ (FaultCode.code .memRange).toNat = 2 ∧
    (FaultCode.code .stackOverflow).toNat = 3 ∧ (FaultCode.code .stackUnderflow).toNat = 4 ∧
    (FaultCode.code .displayRange).toNat = 5 ∧ (FaultCode.code .decode).toNat = 6 ∧
    ∀ c : FaultCode, c.code.toNat ≠ 7

/-- For every instruction that is not illegal and raises no BoundsError in the state, the next state has the same
FAULT and FINFO, and the same RUN unless the instruction is EXIT; and only RET, CALL, LD B, LD [I], LD Vx, [I] and DRW
ever raise a BoundsError. (R32, R201, R202; derived.) -/
def Obligations.OnlyTheListedInstructionsFault : Prop :=
  ∀ (i : Instr) (s : State),
    (i.illegal = false → boundsFault i s = none →
      ∃ t, exec i s = .next t ∧ t.fault = s.fault ∧ t.finfo = s.finfo ∧ (i ≠ .exit → t.run = s.run)) ∧
    (boundsFault i s ≠ none →
      i = .ret ∨ (∃ nnn, i = .call nnn) ∨ (∃ x, i = .ldB x) ∨ (∃ x, i = .storeRegs x) ∨ (∃ x, i = .loadRegs x) ∨
        ∃ x y n, i = .drw x y n)

/-- In every state and for every x and nn, VF included, 6XNN answers the state with V[x] = nn; every other register,
every flag and all other state are unchanged. (R141; stated.) -/
def Obligations.LoadImmediateWritesTheByte : Prop :=
  ∀ (s : State) (x : Reg) (nn : Byte),
    ∃ t, exec (.ldImm x nn) s = .next t ∧ readV t x = nn ∧ (∀ r, r ≠ x → readV t r = readV s r) ∧
      t = { s with v := t.v }

/-- In every state and for every x and nn, 7XNN answers the state with V[x] = (V[x] + nn) mod 256; every other
register (VF included, unless x is 15) and all other state are unchanged; and after 6XNN with m the result is (m + nn)
mod 256. (R142; stated.) -/
def Obligations.AddImmediateAddsModulo256 : Prop :=
  ∀ (s : State) (x : Reg) (nn : Byte),
    (∃ t, exec (.addImm x nn) s = .next t ∧ (readV t x).toNat = ((readV s x).toNat + nn.toNat) % 256 ∧
      (∀ r, r ≠ x → readV t r = readV s r) ∧ t = { s with v := t.v }) ∧
    ∀ m : Byte, ∃ t u, exec (.ldImm x m) s = .next t ∧ exec (.addImm x nn) t = .next u ∧
      (readV u x).toNat = (m.toNat + nn.toNat) % 256

/-- In every state, CXNN answers the state with V[x] = r & nn, where r is the free byte of the state's draw count; the
count goes up by one and nothing else changes. For every byte r the effect writes r & nn, which has no bit that nn
lacks. The draw count is the model's own field (log entry 4); that rnd is under no law is the spec's decision D19.
(R41, R143; derived.) -/
def Obligations.RandomByteIsMasked : Prop :=
  (∀ (s : State) (x : Reg) (nn : Byte),
    ∃ t, exec (.rnd x nn) s = .next t ∧ readV t x = Config.randomByte s.draws &&& nn ∧
      (∀ q, q ≠ x → readV t q = readV s q) ∧ t = { s with v := t.v, draws := s.draws + 1 }) ∧
  ∀ (s : State) (x : Reg) (r nn : Byte),
    readV (randomInto r x nn s) x = r &&& nn ∧
      ∀ k : Nat, nn.getLsbD k = false → (readV (randomInto r x nn s) x).getLsbD k = false

/-- In every state and for every x and y: 8XY0 gives V[x] = V[y]; 8XY1, 8XY2 and 8XY3 give in V[x] the bitwise OR, AND
and XOR of the old V[x] and V[y]. Every other register is unchanged, VF too unless it is V[x], and so is all other
state. (R151, R152, R153, R154; stated.) -/
def Obligations.MoveAndLogicActBitwise : Prop :=
  ∀ (s : State) (x y : Reg),
    (∃ t, exec (.ldReg x y) s = .next t ∧ readV t x = readV s y ∧ (∀ r, r ≠ x → readV t r = readV s r) ∧
      t = { s with v := t.v }) ∧
    (∃ t, exec (.orReg x y) s = .next t ∧
      (∀ k : Nat, (readV t x).getLsbD k = ((readV s x).getLsbD k || (readV s y).getLsbD k)) ∧
      (∀ r, r ≠ x → readV t r = readV s r) ∧ t = { s with v := t.v }) ∧
    (∃ t, exec (.andReg x y) s = .next t ∧
      (∀ k : Nat, (readV t x).getLsbD k = ((readV s x).getLsbD k && (readV s y).getLsbD k)) ∧
      (∀ r, r ≠ x → readV t r = readV s r) ∧ t = { s with v := t.v }) ∧
    (∃ t, exec (.xorReg x y) s = .next t ∧
      (∀ k : Nat, (readV t x).getLsbD k = ((readV s x).getLsbD k ^^ (readV s y).getLsbD k)) ∧
      (∀ r, r ≠ x → readV t r = readV s r) ∧ t = { s with v := t.v })

/-- In every state and for every x and y, 8XY4 answers the state with VF = 1 if V[x] + V[y] is above 255 and 0
otherwise, from the old registers also where x or y is 15, and with V[x] = (V[x] + V[y]) mod 256 unless x is 15; every
other register and all other state are unchanged. (R155; stated.) -/
def Obligations.AddWritesSumThenCarry : Prop :=
  ∀ (s : State) (x y : Reg),
    ∃ t, exec (.addReg x y) s = .next t ∧
      (readV t VF).toNat = (if (readV s x).toNat + (readV s y).toNat > 255 then 1 else 0) ∧
      (x ≠ VF → (readV t x).toNat = ((readV s x).toNat + (readV s y).toNat) % 256) ∧
      (∀ r, r ≠ x → r ≠ VF → readV t r = readV s r) ∧ t = { s with v := t.v }

/-- In every state, with f = 1 if V[x] >= V[y] and 0 otherwise: for x and y other than 15, VF = f and V[x] = (V[x] -
V[y]) mod 256; for x = 15 only, VF = (f - V[y]) mod 256; for y = 15 only, VF = f and V[x] = (V[x] - f) mod 256; for
both, VF = 0. Every other register and all other state are unchanged. The order of the two writes is the spec's
decision D1. (R13, R156; derived.) -/
def Obligations.SubtractWritesFlagThenDifference : Prop :=
  ∀ (s : State) (x y : Reg),
    ∃ t, exec (.subReg x y) s = .next t ∧
      (x ≠ VF → (readV t VF).toNat = if (readV s x).toNat ≥ (readV s y).toNat then 1 else 0) ∧
      (x ≠ VF → y ≠ VF → (readV t x).toNat = ((readV s x).toNat + 256 - (readV s y).toNat) % 256) ∧
      (x = VF → y ≠ VF → (readV t VF).toNat =
        ((if (readV s x).toNat ≥ (readV s y).toNat then 1 else 0) + 256 - (readV s y).toNat) % 256) ∧
      (x ≠ VF → y = VF → (readV t x).toNat =
        ((readV s x).toNat + 256 - if (readV s x).toNat ≥ (readV s y).toNat then 1 else 0) % 256) ∧
      (x = VF → y = VF → readV t VF = 0) ∧
      (∀ r, r ≠ x → r ≠ VF → readV t r = readV s r) ∧ t = { s with v := t.v }

/-- In every state and for every x and y, 8XY7 answers the state with VF = 1 if V[y] >= V[x] and 0 otherwise, from the
old registers also where x or y is 15, and with V[x] = (V[y] - V[x]) mod 256 unless x is 15; every other register and
all other state are unchanged. (R158; stated.) -/
def Obligations.SubtractReversedWritesDifferenceThenFlag : Prop :=
  ∀ (s : State) (x y : Reg),
    ∃ t, exec (.subnReg x y) s = .next t ∧
      (readV t VF).toNat = (if (readV s y).toNat < (readV s x).toNat then 0 else 1) ∧
      (x ≠ VF → (readV t x).toNat = ((readV s y).toNat + 256 - (readV s x).toNat) % 256) ∧
      (∀ r, r ≠ x → r ≠ VF → readV t r = readV s r) ∧ t = { s with v := t.v }

/-- In every state: for x and y other than 15, 8XY6 gives VF = V[x] mod 2 and V[y] = V[x] div 2; for x = 15 only, VF =
VF mod 2 and V[y] = 0; for y = 15 only, VF = V[x] div 2; for both, VF = 0; every other register (V[x] too, unless x =
y) and all other state are unchanged. The operation with SHR_DEST = X gives V[x] = V[x] div 2 and VF = V[x] mod 2, or
VF = 0 for x = 15, and leaves all else. SHR_DEST = Y and the order of the writes are the spec's decisions D2 and D1;
the model fixes the parameter (log entry 1). (R8, R13, R157; derived.) -/
def Obligations.ShiftRightWritesFlagThenHalf : Prop :=
  ∀ (s : State) (x y : Reg),
    (∃ t, exec (.shrReg x y) s = .next t ∧
      (y ≠ VF → (readV t VF).toNat = (readV s x).toNat % 2) ∧
      (x ≠ VF → (readV t y).toNat = (readV s x).toNat / 2) ∧
      (x = VF → readV t y = 0 ∨ y = VF) ∧
      (x = VF → y = VF → readV t VF = 0) ∧
      (∀ r, r ≠ y → r ≠ VF → readV t r = readV s r) ∧ t = { s with v := t.v }) ∧
    (x ≠ VF → (readV (shiftRight .x x y s) x).toNat = (readV s x).toNat / 2 ∧
      (readV (shiftRight .x x y s) VF).toNat = (readV s x).toNat % 2) ∧
    (x = VF → readV (shiftRight .x x y s) VF = 0) ∧
    (∀ r, r ≠ x → r ≠ VF → readV (shiftRight .x x y s) r = readV s r) ∧
    shiftRight .x x y s = { s with v := (shiftRight .x x y s).v }

/-- In every state: for x other than 15, 8XYE gives VF = V[x] div 128 and V[x] = 2 V[x] mod 256; for x = 15, VF ends
as 2 (VF div 128); every other register and all other state are unchanged. The order of the writes is the spec's
decision D1. (R13, R159; derived.) -/
def Obligations.ShiftLeftWritesFlagThenDouble : Prop :=
  ∀ (s : State) (x y : Reg),
    ∃ t, exec (.shlReg x y) s = .next t ∧
      (x ≠ VF → (readV t VF).toNat = (readV s x).toNat / 128 ∧ (readV t x).toNat = 2 * (readV s x).toNat % 256) ∧
      (x = VF → (readV t VF).toNat = 2 * ((readV s x).toNat / 128)) ∧
      (∀ r, r ≠ x → r ≠ VF → readV t r = readV s r) ∧ t = { s with v := t.v }

/-- In every state, with PC already advanced, 1NNN answers the state with PC = nnn and BNNN the state with PC = (PC +
V[0] + nnn) mod 65536; nothing else changes. (R121, R127; stated.) -/
def Obligations.JumpsReplaceOrAddToThePc : Prop :=
  ∀ (s : State) (nnn : Addr12),
    (∃ t, exec (.jp nnn) s = .next t ∧ t.pc.toNat = nnn.toNat ∧ t = { s with pc := t.pc }) ∧
    ∃ t, exec (.jpV0 nnn) s = .next t ∧ t.pc.toNat = (s.pc.toNat + (readV s 0).toNat + nnn.toNat) % 65536 ∧
      t = { s with pc := t.pc }

/-- In every state, with PC already advanced, 3XNN, 4XNN, 5XYn and 9XYn (every low nibble n) answer the state with PC
+ 2 (mod 65536) when V[x] = nn, V[x] differs from nn, V[x] = V[y], V[x] differs from V[y] respectively, and with PC
unchanged otherwise; nothing else changes. The reduction modulo 65536 is the spec's decision D6 (log entry 15), and
that every low nibble executes is its decision D16 (log entry 10). (R18, R25, R77, R123, R124, R125, R126, R128;
derived.) -/
def Obligations.SkipsAddTwoWhenTheirConditionHolds : Prop :=
  ∀ (s : State) (x y : Reg) (nn : Byte) (n : Nibble),
    (∃ t, exec (.seImm x nn) s = .next t ∧ t = { s with pc := t.pc } ∧
      t.pc.toNat = if (readV s x).toNat = nn.toNat then (s.pc.toNat + 2) % 65536 else s.pc.toNat) ∧
    (∃ t, exec (.sneImm x nn) s = .next t ∧ t = { s with pc := t.pc } ∧
      t.pc.toNat = if (readV s x).toNat = nn.toNat then s.pc.toNat else (s.pc.toNat + 2) % 65536) ∧
    (∃ t, exec (.seReg x y n) s = .next t ∧ t = { s with pc := t.pc } ∧
      t.pc.toNat = if (readV s x).toNat = (readV s y).toNat then (s.pc.toNat + 2) % 65536 else s.pc.toNat) ∧
    ∃ t, exec (.sneReg x y n) s = .next t ∧ t = { s with pc := t.pc } ∧
      t.pc.toNat = if (readV s x).toNat = (readV s y).toNat then s.pc.toNat else (s.pc.toNat + 2) % 65536

/-- With memory in canonical form: if SP + 2 is at most STACK_LIMIT, 2NNN stores the low byte of PC at SP and the high
byte at SP + 1, adds 2 to SP and sets PC = nnn; every other address reads as before and nothing else changes.
Otherwise it changes only RUN, FAULT = STACK_OVERFLOW and FINFO = the opcode. STACK_LIMIT is taken at 0x200, the
spec's decision D5, fixed by the model (log entry 3); that the low byte lies at the lower address is PRESUMED (log
entry 17, R54). (R54, R122; derived.) -/
def Obligations.CallPushesTheReturnAddress : Prop :=
  ∀ (s : State) (nnn : Addr12), s.mem.wf = true →
    (s.sp.toNat + 2 ≤ 0x200 → ∃ t, exec (.call nnn) s = .next t ∧ t.pc.toNat = nnn.toNat ∧
      t.sp.toNat = s.sp.toNat + 2 ∧
      (t.mem.read s.sp.toNat).toNat = s.pc.toNat % 256 ∧ (t.mem.read (s.sp.toNat + 1)).toNat = s.pc.toNat / 256 ∧
      (∀ a, a ≠ s.sp.toNat → a ≠ s.sp.toNat + 1 → t.mem.read a = s.mem.read a) ∧
      t = { s with pc := t.pc, sp := t.sp, mem := t.mem }) ∧
    (s.sp.toNat + 2 > 0x200 → exec (.call nnn) s =
      .next { s with run := false, fault := .stackOverflow, finfo := BitVec.ofNat 16 (0x2000 + nnn.toNat) })

/-- With SP - 2 at least STACK_BASE and the two bytes in memory, 00EE takes 2 from SP and sets PC to M[SP] + 256 M[SP
+ 1] at the new SP; memory and all else are unchanged. With SP - 2 below STACK_BASE it changes only RUN, FAULT =
STACK_UNDERFLOW and FINFO = 0x00EE. With SP so high that the bytes lie outside memory, which no run reaches, it
records MEM_RANGE: the model's choice (log entry 9). STACK_BASE is taken at 0x52, the spec's decision D4, fixed by the
model (log entry 3); that the low byte lies at the lower address is PRESUMED (log entry 17, R54). (R54, R103;
derived.) -/
def Obligations.ReturnPopsTheReturnAddress : Prop :=
  ∀ s : State,
    (0x52 + 2 ≤ s.sp.toNat → s.sp.toNat ≤ 4096 → ∃ t, exec .ret s = .next t ∧ t.sp.toNat = s.sp.toNat - 2 ∧
      t.pc.toNat = (s.mem.read (s.sp.toNat - 2)).toNat + 256 * (s.mem.read (s.sp.toNat - 1)).toNat ∧
      t = { s with pc := t.pc, sp := t.sp }) ∧
    (s.sp.toNat < 0x52 + 2 →
      exec .ret s = .next { s with run := false, fault := .stackUnderflow, finfo := 0x00EE }) ∧
    (4096 < s.sp.toNat → exec .ret s = .next { s with run := false, fault := .memRange, finfo := 0x00EE })

/-- With memory in canonical form and SP within the stack region with room for one word, 2NNN followed at once by 00EE
gives a state whose PC and SP are those before the call and which differs from it in memory alone, at the two bytes of
the stack slot. The stack region is taken from 0x52 to 0x1FF, the spec's decisions D4 and D5, fixed by the model (log
entry 3). (R103, R122, R129; derived.) -/
def Obligations.CallThenReturnRestores : Prop :=
  ∀ (s : State) (nnn : Addr12), s.mem.wf = true → 0x52 ≤ s.sp.toNat → s.sp.toNat + 2 ≤ 0x200 →
    ∃ t u, exec (.call nnn) s = .next t ∧ exec .ret t = .next u ∧ u = { s with mem := u.mem } ∧
      ∀ a, a ≠ s.sp.toNat → a ≠ s.sp.toNat + 1 → u.mem.read a = s.mem.read a

/-- In every state and for every 12-bit nnn, ANNN answers the state with I = nnn; nothing else changes. (R171;
stated.) -/
def Obligations.LoadIndexWritesTheAddress : Prop :=
  ∀ (s : State) (nnn : Addr12),
    ∃ t, exec (.ldI nnn) s = .next t ∧ t.i.toNat = nnn.toNat ∧ t = { s with i := t.i }

/-- In every state, FX1E answers the state with I = (I + V[x]) mod 4096 and FX29 the state with I = 5 V[x]; nothing
else changes. For every modulus m from 1 to 65536 the operation of FX1E gives (I + V[x]) mod m. The modulus 4096 is
the spec's decision D3, fixed by the model (log entry 2); that FX29 masks nothing is decision D29. (R8, R172, R173;
derived.) -/
def Obligations.IndexArithmetic : Prop :=
  ∀ (s : State) (x : Reg),
    (∃ t, exec (.addI x) s = .next t ∧ t.i.toNat = (s.i.toNat + (readV s x).toNat) % 4096 ∧ t = { s with i := t.i }) ∧
    (∃ t, exec (.ldF x) s = .next t ∧ t.i.toNat = (readV s x).toNat * 5 ∧ t = { s with i := t.i }) ∧
    ∀ m : Nat, 0 < m → m ≤ 65536 → (addToIndex m x s).i.toNat = (s.i.toNat + (readV s x).toNat) % m

/-- With memory in canonical form and I + 2 at most 4095, FX33 stores V[x] div 100, (V[x] div 10) mod 10 and V[x] mod
10 at the effective address and the two after it; every other address reads as before and nothing else changes. The
three digits make up V[x]. (R174; derived.) -/
def Obligations.DecimalDigitsAreStored : Prop :=
  ∀ (s : State) (x : Reg), s.mem.wf = true → s.i.toNat + 2 ≤ 4095 →
    ∃ t, exec (.ldB x) s = .next t ∧
      (t.mem.read (effAddr s 0)).toNat = (readV s x).toNat / 100 ∧
      (t.mem.read (effAddr s 1)).toNat = (readV s x).toNat / 10 % 10 ∧
      (t.mem.read (effAddr s 2)).toNat = (readV s x).toNat % 10 ∧
      100 * (t.mem.read (effAddr s 0)).toNat + 10 * (t.mem.read (effAddr s 1)).toNat + (t.mem.read (effAddr s 2)).toNat =
        (readV s x).toNat ∧
      (∀ a, a < effAddr s 0 ∨ effAddr s 2 < a → t.mem.read a = s.mem.read a) ∧ t = { s with mem := t.mem }

/-- With memory in canonical form and I + x at most 4095, FX55 stores V[k] at I + k for every k from 0 to x; every
other address reads as before and nothing else changes. That I is unchanged is the spec's decision D25. (R175;
derived.) -/
def Obligations.RegistersAreStoredFromI : Prop :=
  ∀ (s : State) (x : Reg), s.mem.wf = true → s.i.toNat + x.val ≤ 4095 →
    ∃ t, exec (.storeRegs x) s = .next t ∧ (∀ k : Reg, k ≤ x → t.mem.read (effAddr s k.val) = readV s k) ∧
      (∀ a, a < effAddr s 0 ∨ effAddr s x.val < a → t.mem.read a = s.mem.read a) ∧ t = { s with mem := t.mem }

/-- With I + x at most 4095, FX65 loads V[k] from I + k for every k from 0 to x; every register above x and all other
state, memory included, are unchanged. That I is unchanged is the spec's decision D25. (R176; derived.) -/
def Obligations.RegistersAreLoadedFromI : Prop :=
  ∀ (s : State) (x : Reg), s.i.toNat + x.val ≤ 4095 →
    ∃ t, exec (.loadRegs x) s = .next t ∧ (∀ k : Reg, k ≤ x → readV t k = s.mem.read (effAddr s k.val)) ∧
      (∀ k : Reg, x < k → readV t k = readV s k) ∧ t = { s with v := t.v }

/-- With n = 0, or the n bytes in memory and the 8 by n rectangle in the grid: DXYN gives each pixel of the rectangle
its old value XOR the sprite bit over it (bit 7 of a row byte leftmost), keeps every other pixel, sets VF to 1 if a
set bit lay over a pixel that was on and to 0 otherwise, and sets RP; the other registers, memory and all other state
are unchanged, also where x or y is 15. The bit order, the range condition and the clearing of VF are the spec's
decisions D7, D8 and D9. (R186, R187, R188, R189, R190; derived.) -/
def Obligations.DrawFlipsThePixelsUnderSetBits : Prop :=
  ∀ (s : State) (x y : Reg) (n : Nibble),
    (n.toNat = 0 ∨
      (s.i.toNat + n.toNat - 1 ≤ 4095 ∧ (readV s x).toNat + 7 ≤ 63 ∧ (readV s y).toNat + n.toNat - 1 ≤ 31)) →
    ∃ t, exec (.drw x y n) s = .next t ∧
      (∀ row col, row < n.toNat → col < 8 →
        t.px.px ((readV s x).toNat + col) ((readV s y).toNat + row) =
          (s.px.px ((readV s x).toNat + col) ((readV s y).toNat + row) ^^
            (s.mem.read (effAddr s row)).getLsbD (7 - col))) ∧
      (∀ c r, ¬((readV s x).toNat ≤ c ∧ c < (readV s x).toNat + 8 ∧
          (readV s y).toNat ≤ r ∧ r < (readV s y).toNat + n.toNat) → t.px.px c r = s.px.px c r) ∧
      (readV t VF = 0 ∨ readV t VF = 1) ∧
      (readV t VF = 1 ↔ ∃ row col, row < n.toNat ∧ col < 8 ∧
        (s.mem.read (effAddr s row)).getLsbD (7 - col) = true ∧
        s.px.px ((readV s x).toNat + col) ((readV s y).toNat + row) = true) ∧
      (∀ r, r ≠ VF → readV t r = readV s r) ∧ t.rp = true ∧ t = { s with v := t.v, px := t.px, rp := t.rp }

/-- With x and y other than 15, the bytes in memory and the rectangle in the grid, two DXYN in a row give a display
equal to the one before; on a clear display the first leaves VF = 0 and the second leaves VF = 1 exactly when the
sprite has a bit set. (R186, R189; derived.) -/
def Obligations.DrawTwiceRestoresThePicture : Prop :=
  ∀ (s : State) (x y : Reg) (n : Nibble), x ≠ VF → y ≠ VF → s.i.toNat + n.toNat - 1 ≤ 4095 →
    (readV s x).toNat + 7 ≤ 63 → (readV s y).toNat + n.toNat - 1 ≤ 31 →
    ∃ t u, exec (.drw x y n) s = .next t ∧ exec (.drw x y n) t = .next u ∧ u.px = s.px ∧
      ((∀ c r, s.px.px c r = false) → readV t VF = 0 ∧
        (readV u VF = 1 ↔ ∃ row, row < n.toNat ∧ s.mem.read (effAddr s row) ≠ 0))

/-- In every state: after 00E0 every pixel is 0; after 00FB the pixel in column c is the old one of column c - 4, or 0
in columns 0 to 3; after 00FC it is the old one of column c + 4, or 0 in columns 60 to 63. RP is set; VF, the other
registers and all other state are unchanged. (R102, R104, R105; stated.) -/
def Obligations.ClearAndHorizontalScrolls : Prop :=
  ∀ s : State,
    (∃ t, exec .cls s = .next t ∧ (∀ c r, c < 64 → r < 32 → t.px.px c r = false) ∧
      t = { s with px := t.px, rp := true }) ∧
    (∃ t, exec .scr s = .next t ∧
      (∀ c r, c < 64 → r < 32 → t.px.px c r = if 4 ≤ c then s.px.px (c - 4) r else false) ∧
      t = { s with px := t.px, rp := true }) ∧
    ∃ t, exec .scl s = .next t ∧
      (∀ c r, c < 64 → r < 32 → t.px.px c r = if c + 4 ≤ 63 then s.px.px (c + 4) r else false) ∧
      t = { s with px := t.px, rp := true }

/-- In every state and for every n from 0 to 15, after 00Cn the pixel in row r is the old one of row r - n, or 0 in
rows 0 to n - 1; RP is set also for n = 0; all other state is unchanged. That RP is set when nothing moves is the
spec's decision D18. (R33, R101, R107; derived.) -/
def Obligations.ScrollDownMovesRows : Prop :=
  ∀ (s : State) (n : Nibble),
    ∃ t, exec (.scd n) s = .next t ∧
      (∀ c r, c < 64 → r < 32 → t.px.px c r = if n.toNat ≤ r then s.px.px c (r - n.toNat) else false) ∧
      t = { s with px := t.px, rp := true }

/-- For every amount k, every grid and every cell of it: scroll_down, scroll_right and scroll_left give the old cell k
rows above, k columns to the left and k columns to the right, or 0 where that cell is outside the grid; scroll_down(0)
is the identity; scroll_down(k) for k >= 32 and the other two for k >= 64 clear the grid. (R107; stated.) -/
def Obligations.ScrollFunctions : Prop :=
  ∀ (d : Display) (k : Nat),
    (∀ c r, c < 64 → r < 32 → (d.scrollDown k).px c r = if k ≤ r then d.px c (r - k) else false) ∧
    (∀ c r, c < 64 → r < 32 → (d.scrollRight k).px c r = if k ≤ c then d.px (c - k) r else false) ∧
    (∀ c r, c < 64 → r < 32 → (d.scrollLeft k).px c r = if c + k ≤ 63 then d.px (c + k) r else false) ∧
    d.scrollDown 0 = d ∧
    (32 ≤ k → d.scrollDown k = Display.clear) ∧
    (64 ≤ k → d.scrollRight k = Display.clear ∧ d.scrollLeft k = Display.clear)

/-- In every state the execute stage of 00FD clears RUN and changes nothing else; a cycle of a running core that
fetches 0x00FD leaves RUN = 0, FAULT as it was, PC advanced and the timers ticked. That the tick happens is the spec's
decision D11. (R106, R250; derived.) -/
def Obligations.ExitHaltsAfterTheTick : Prop :=
  (∀ s : State, exec .exit s = .next { s with run := false }) ∧
  ∀ s : State, s.run = true → fetchOpcode s = some 0x00FD →
    ∃ t, step s = .next t ∧ t.dt.toNat = s.dt.toNat - 1 ∧ t.st.toNat = s.st.toNat - 1 ∧
      t = { s with pc := s.pc + 2, run := false, dt := t.dt, st := t.st, beep := decide (s.st.toNat = 1) }

/-- In every state and for every nnn, 00FE, 00FF and 0NNN answer the very state they start from. (R108, R109, R110;
stated.) -/
def Obligations.InertSystemWordsChangeNothing : Prop :=
  ∀ (s : State) (nnn : Addr12), exec .low s = .next s ∧ exec .high s = .next s ∧ exec (.sys nnn) s = .next s

/-- In every state, whatever the key port holds, EX9E, EXA1 and FX0A answer the very state they start from: no skip,
no wait, no register written. That they are no-ops is the spec's decision D15. (R192, R193, R195; derived.) -/
def Obligations.InertKeyOpcodesChangeNothing : Prop :=
  ∀ (s : State) (x : Reg), exec (.skp x) s = .next s ∧ exec (.sknp x) s = .next s ∧ exec (.ldVxK x) s = .next s

/-- In every state, FX07 answers the state with V[x] = DT and every other register unchanged, FX15 the state with DT =
V[x], FX18 the state with ST = V[x]; nothing else changes in the execute stage. (R194, R196, R197; derived.) -/
def Obligations.TimerRegistersMoveWhole : Prop :=
  ∀ (s : State) (x : Reg),
    (∃ t, exec (.ldVxDt x) s = .next t ∧ readV t x = s.dt ∧ (∀ r, r ≠ x → readV t r = readV s r) ∧
      t = { s with v := t.v }) ∧
    exec (.ldDtVx x) s = .next { s with dt := readV s x } ∧
    exec (.ldStVx x) s = .next { s with st := readV s x }

/-- When a running core fetches FX15 and in the next cycle FY07, the register V[y] ends with V[x] - 1, or 0 for V[x] =
0, where V[x] is the value before the first cycle. (R196, R198, R254; derived.) -/
def Obligations.DelaySetReadsBackOneLess : Prop :=
  ∀ (s t : State) (x y : Reg), s.run = true → fetchOpcode s = some (encode (.ldDtVx x)) → step s = .next t →
    fetchOpcode t = some (encode (.ldVxDt y)) →
    ∃ u, step t = .next u ∧ (readV u y).toNat = (readV s x).toNat - 1

/-- In every state the execute stage of an illegal row of the 8, E and F families changes only RUN = 0, FAULT = DECODE
and FINFO = the word. (R160, R199, R203; derived.) -/
def Obligations.IllegalWordsRaiseDecodeError : Prop :=
  ∀ (s : State) (x y : Reg) (n : Nibble) (nn : Byte),
    exec (.illegal8 x y n) s = .next
      { s with run := false, fault := .decode, finfo := BitVec.ofNat 16 (0x8000 + x.val * 256 + y.val * 16 + n.toNat) } ∧
    exec (.illegalE x nn) s = .next
      { s with run := false, fault := .decode, finfo := BitVec.ofNat 16 (0xE000 + x.val * 256 + nn.toNat) } ∧
    exec (.illegalF x nn) s = .next
      { s with run := false, fault := .decode, finfo := BitVec.ofNat 16 (0xF000 + x.val * 256 + nn.toNat) }

/-- For every instruction and every state, a register the table of R22 does not list for the instruction reads after
its execute stage as before; where the instruction raises a BoundsError, every register does. The row of 8XY6 is taken
with SHR_DEST = Y (log entry 1). (R22, R205; derived.) -/
def Obligations.RegistersWrittenOnlyAsTheTableSays : Prop :=
  ∀ (i : Instr) (s : State), ∃ t, exec i s = .next t ∧
    ∀ r : Reg, i.writesV r = false ∨ boundsFault i s ≠ none → readV t r = readV s r

/-- For every instruction and every state, an address outside the bytes that CALL stores at SP, LD B at the three
bytes from the effective address, and LD [I], Vx at the x + 1 bytes from it, reads after the execute stage as before;
every address does for the instructions that store nothing, and where the instruction raises a BoundsError. (R51, R57,
R177, R205; derived.) -/
def Obligations.MemoryWrittenOnlyWhereStored : Prop :=
  ∀ (i : Instr) (s : State), ∃ t, exec i s = .next t ∧
    ∀ a : Nat, i.storesAt s a = false ∨ boundsFault i s ≠ none → t.mem.read a = s.mem.read a

/-- For every instruction and every state: an instruction that does not draw, clear or scroll leaves the display and
RP as they were, and so does one that raises a BoundsError; one that draws, clears or scrolls and raises none leaves
RP = 1. (R33, R38, R205; derived.) -/
def Obligations.DisplayWrittenOnlyByDrawingInstructions : Prop :=
  ∀ (i : Instr) (s : State), ∃ t, exec i s = .next t ∧
    (i.paints = false ∨ boundsFault i s ≠ none → t.px = s.px ∧ t.rp = s.rp) ∧
    (i.paints = true → boundsFault i s = none → t.rp = true)

/-- For every instruction and every state: I changes only in ANNN, FX1E and FX29; SP only in 2NNN and 00EE; DT only in
FX15; ST only in FX18; the draw count only in CXNN (the model's own field, log entry 4); K and BEEP in no execute
stage. BEEP is the output of the tick (R40, R226), held as a field by the model (log entry 6). (R26, R28, R30, R31,
R39, R40, R41, R226; derived.) -/
def Obligations.SpecialRegistersWrittenOnlyByTheirInstructions : Prop :=
  ∀ (i : Instr) (s : State), ∃ t, exec i s = .next t ∧
    (t.i = s.i ∨ (∃ nnn, i = .ldI nnn) ∨ (∃ x, i = .addI x) ∨ ∃ x, i = .ldF x) ∧
    (t.sp = s.sp ∨ (∃ nnn, i = .call nnn) ∨ i = .ret) ∧
    (t.dt = s.dt ∨ ∃ x, i = .ldDtVx x) ∧ (t.st = s.st ∨ ∃ x, i = .ldStVx x) ∧
    (t.draws = s.draws ∨ ∃ x nn, i = .rnd x nn) ∧ t.keys = s.keys ∧ t.beep = s.beep

/-- For every instruction and every state, an instruction that is no control transfer leaves PC at the advanced value,
and so does a control transfer that raises a BoundsError. (R24, R130, R205; derived.) -/
def Obligations.ProgramCounterWrittenOnlyByTransfers : Prop :=
  ∀ (i : Instr) (s : State), ∃ t, exec i s = .next t ∧
    (i.transfers = false ∨ boundsFault i s ≠ none → t.pc = s.pc)

/-- The reset state has canonical memory, SP in the stack region at an even distance from its base, I below 4096, no
fault while running, and FINFO = 0. (R27, R29, R45; derived.) -/
def Obligations.ResetMeetsTheInvariant : Prop :=
  Inv State.reset

/-- From every state that meets the invariant (canonical memory, SP in the stack region at an even distance from its
base, I below 4096, a faulted core halted, FINFO = 0 without a fault), whatever instruction the cycle runs, the next
state meets it. (R27, R29, R35, R52, R209; derived.) -/
def Obligations.StepKeepsTheInvariant : Prop :=
  ∀ s t : State, Inv s → step s = .next t → Inv t

/-- Every state reached from reset by any loads that fit, then any cycles and any of the host's moves between them,
meets the invariant. (R27, R29, R209, R236; derived.) -/
def Obligations.ReachableStatesMeetTheInvariant : Prop :=
  ∀ s : State, Reachable s → Inv s

/-- After reset every V register, I, DT, ST and FINFO are 0, PC is 0x200, SP is 0x52, RUN is 1, RP is 0, FAULT is
NONE, BEEP is 0, every byte of memory reads 0 and every pixel is 0. RP, FAULT, FINFO and BEEP are the spec's decision
D23. (R45, R240; derived.) -/
def Obligations.ResetLeavesTheValuesOfTheTable : Prop :=
  (∀ r : Reg, readV State.reset r = 0) ∧ State.reset.i = 0 ∧ State.reset.pc = 0x200 ∧ State.reset.sp = 0x52 ∧
    State.reset.dt = 0 ∧ State.reset.st = 0 ∧ State.reset.run = true ∧ State.reset.rp = false ∧
    State.reset.fault = .none ∧ State.reset.finfo = 0 ∧ State.reset.beep = false ∧
    (∀ a : Nat, State.reset.mem.read a = 0) ∧ ∀ c r : Nat, State.reset.px.px c r = false

/-- For every font of 80 bytes and every program of at most 3584 bytes, boot answers the reset state with the font's
bytes at 0x000 to 0x04F, the program's from 0x200, and 0 at every other address; for a longer program it answers none.
(R46, R66, R230, R242; derived.) -/
def Obligations.BootPlacesFontAndProgram : Prop :=
  ∀ (font : Vector Byte 80) (program : List Byte),
    (program.length ≤ 3584 → ∃ s, boot font program = some s ∧ s = { State.reset with mem := s.mem } ∧
      (∀ k : Fin 80, s.mem.read k.val = font[k]) ∧
      (∀ k : Fin program.length, s.mem.read (0x200 + k.val) = program[k]) ∧
      ∀ a : Nat, 80 ≤ a → (a < 0x200 ∨ 0x200 + program.length ≤ a) → s.mem.read a = 0) ∧
    (program.length > 3584 → boot font program = none)

/-- From two states that differ only in K and RP, a cycle gives two states that differ only in K and RP: whatever the
host writes to them, every other field goes the same way. Both runs draw the same free bytes, a limit of the model
(log entry 4). (R33, R39, R252; derived.) -/
def Obligations.KeysAndRepaintAffectNothingElse : Prop :=
  ∀ (s t : State) (k : Vector Bool 16) (b : Bool), step s = .next t →
    ∃ b' : Bool, step { s with keys := k, rp := b } = .next { t with keys := k, rp := b' }

/-- From a running state that meets the invariant, a cycle that leaves the core halted without a fault fetched the
word 0x00FD. (R207, R251; derived.) -/
def Obligations.OnlyExitEndsARunWell : Prop :=
  ∀ s t : State, Inv s → s.run = true → step s = .next t → GoodEnd t → fetchOpcode s = some 0x00FD

/-- From a halted state, any number of cycles above 0 gives that state with BEEP = 0: RUN, FAULT, FINFO and all else
never change again. (R207, R209, R241; derived.) -/
def Obligations.FaultIsPermanent : Prop :=
  ∀ (k : Nat) (s : State), s.run = false → Host.Core.run Sys2Proof.core (k + 1) s = .next { s with beep := false }

/-- With memory in canonical form, for each of the three storing instructions that does not fault, and with PC after
the execute stage at most 4094: the fetch after the tick of that cycle reads the opcode whose high byte is at that PC
and whose low byte is at PC + 1, each byte the stored one where the store covers its address and the old one
elsewhere. The stored bytes are the three digits of V[x] from I for FX33, V[0] to V[x] from I for FX55 (one byte for x
= 0), and the two bytes of the return address from SP for 2NNN, whose next PC is nnn. STACK_LIMIT at 0x200 is log
entry 3 (decision D5); the low byte of the return address at SP is PRESUMED (log entry 17, R54). (R53, R54, R64, R67;
derived.) -/
def Obligations.StoreIsSeenByTheNextFetch : Prop :=
  ∀ s : State, s.mem.wf = true →
    (∀ x : Reg, s.i.toNat + 2 ≤ 4095 → s.pc.toNat ≤ 4094 →
      ∃ t w, exec (.ldB x) s = .next t ∧ fetchOpcode (tick t) = some w ∧
        w.toNat = opcodeOver s.mem (effAddr s 0)
          [BitVec.ofNat 8 ((readV s x).toNat / 100), BitVec.ofNat 8 ((readV s x).toNat / 10 % 10),
            BitVec.ofNat 8 ((readV s x).toNat % 10)] s.pc.toNat) ∧
    (∀ x : Reg, s.i.toNat + x.val ≤ 4095 → s.pc.toNat ≤ 4094 →
      ∃ t w, exec (.storeRegs x) s = .next t ∧ fetchOpcode (tick t) = some w ∧
        w.toNat = opcodeOver s.mem (effAddr s 0) ((List.range (x.val + 1)).map fun k => readV s (Fin.ofNat 16 k))
          s.pc.toNat) ∧
    ∀ nnn : Addr12, s.sp.toNat + 2 ≤ 0x200 → nnn.toNat ≤ 4094 →
      ∃ t w, exec (.call nnn) s = .next t ∧ fetchOpcode (tick t) = some w ∧
        w.toNat = opcodeOver s.mem s.sp.toNat
          [BitVec.ofNat 8 (s.pc.toNat % 256), BitVec.ofNat 8 (s.pc.toNat / 256)] nnn.toNat
end

