-- ==== Sys2Proof/Laws/Decode.lean ====
section
/-! SUPPORT. The fields of a word and of a packed word as numbers (spec/30_encoding.md R72). -/

namespace Sys2Proof

theorem fieldOp_toNat (w : Word) : (fieldOp w).toNat = w.toNat / 4096 := by
  unfold fieldOp
  have := w.isLt
  rw [BitVec.extractLsb'_toNat, Nat.shiftRight_eq_div_pow]
  omega

theorem fieldX_val (w : Word) : (fieldX w).val = w.toNat / 256 % 16 := by
  unfold fieldX
  rw [BitVec.val_toFin, BitVec.extractLsb'_toNat, Nat.shiftRight_eq_div_pow]

theorem fieldY_val (w : Word) : (fieldY w).val = w.toNat / 16 % 16 := by
  unfold fieldY
  rw [BitVec.val_toFin, BitVec.extractLsb'_toNat, Nat.shiftRight_eq_div_pow]

theorem fieldN_toNat (w : Word) : (fieldN w).toNat = w.toNat % 16 := by
  unfold fieldN
  rw [BitVec.extractLsb'_toNat, Nat.shiftRight_zero]

theorem fieldNN_toNat (w : Word) : (fieldNN w).toNat = w.toNat % 256 := by
  unfold fieldNN
  rw [BitVec.extractLsb'_toNat, Nat.shiftRight_zero]

theorem fieldNNN_toNat (w : Word) : (fieldNNN w).toNat = w.toNat % 4096 := by
  unfold fieldNNN
  rw [BitVec.extractLsb'_toNat, Nat.shiftRight_zero]

theorem packNNN_toNat (op : Nat) (nnn : Addr12) (h : op < 16) : (packNNN op nnn).toNat = op * 4096 + nnn.toNat := by
  unfold packNNN
  have := nnn.isLt
  rw [BitVec.toNat_ofNat, Nat.mod_eq_of_lt (by omega)]

theorem packXNN_toNat (op : Nat) (x : Reg) (nn : Byte) (h : op < 16) :
    (packXNN op x nn).toNat = op * 4096 + x.val * 256 + nn.toNat := by
  unfold packXNN
  have := nn.isLt
  have := x.isLt
  rw [BitVec.toNat_ofNat, Nat.mod_eq_of_lt (by omega)]

theorem packXYN_toNat (op : Nat) (x y : Reg) (n : Nibble) (h : op < 16) :
    (packXYN op x y n).toNat = op * 4096 + x.val * 256 + y.val * 16 + n.toNat := by
  unfold packXYN
  have := n.isLt
  have := x.isLt
  have := y.isLt
  rw [BitVec.toNat_ofNat, Nat.mod_eq_of_lt (by omega)]

/-- A word under the mask `0xF000` keeps its dispatch nibble. -/
theorem and_dispatch_mask (w : Word) : w &&& 0xF000#16 = BitVec.ofNat 16 (w.toNat / 4096 * 4096) := by
  have h : w &&& 0xF000#16 = (w >>> 12) <<< 12 := by
    ext i hi
    simp only [BitVec.getElem_and, BitVec.getElem_shiftLeft, BitVec.getElem_ushiftRight]
    interval_cases i <;> simp
  rw [h]
  apply BitVec.eq_of_toNat_eq
  simp only [BitVec.toNat_shiftLeft, BitVec.toNat_ushiftRight, BitVec.toNat_ofNat, Nat.shiftRight_eq_div_pow,
    Nat.shiftLeft_eq]

end Sys2Proof
end

