-- ==== Sys2Proof/Laws/Display.lean ====
section
/-! SUPPORT. Pixels: a read after a write, the built grids, and what the blitter does to each pixel (spec/10_state.md R37,
spec/40_system_display_control.md R107, spec/45_draw.md R186 to R189). -/

namespace Sys2Proof.Machine

theorem Display.px_build (f : Nat → Nat → Bool) (c r : Nat) (hc : c < 64) (hr : r < 32) :
    (Display.build f).px c r = f c r := by
  simp [Display.px, Display.build, hc, hr]

/-- A cell outside the grid reads 0. -/
theorem Display.px_outside (d : Display) (c r : Nat) (h : ¬(r < 32 ∧ c < 64)) : d.px c r = false := by
  simp [Display.px, h]

/-- A read after a pixel write. -/
theorem Display.px_setPx (d : Display) (c r : Nat) (b : Bool) (c' r' : Nat) (hc : c < 64) (hr : r < 32) :
    (d.setPx c r b).px c' r' = if c' = c ∧ r' = r then b else d.px c' r' := by
  unfold Display.setPx Display.px
  simp only [hr, hc, and_self, dif_pos]
  by_cases h : r' < 32 ∧ c' < 64
  · simp only [h, and_self, dif_pos, Vector.getElem_set]
    by_cases hr' : r = r'
    · subst hr'
      by_cases hc' : c = c'
      · subst hc'
        simp
      · have : c' ≠ c := fun e => hc' e.symm
        simp [hc', this]
    · have : r' ≠ r := fun e => hr' e.symm
      simp [hr', this]
  · have : ¬(c' = c ∧ r' = r) := by
      rintro ⟨rfl, rfl⟩
      exact h ⟨hr, hc⟩
    simp [h, this]

/-- Grids with the same pixels are the same. -/
theorem Display.ext_px (d e : Display) (h : ∀ c r, c < 64 → r < 32 → d.px c r = e.px c r) : d = e := by
  apply Vector.ext
  intro r hr
  apply Vector.ext
  intro c hc
  simpa [Display.px, hr, hc] using h c r hc hr

/-- Whether the row byte `b`, drawn from column `x0`, has a set bit at column `c` (R187). -/
def rowBit (b : Byte) (x0 c : Nat) : Bool := decide (x0 ≤ c ∧ c < x0 + 8) && b.getLsbD (7 - (c - x0))

/-- The first `k` columns of a sprite row: each set bit flips its pixel, and a collision is a flipped pixel that was on. -/
theorem blitColumns_spec (b : Byte) (x0 row : Nat) (d : Display) (hit : Bool) (hx : x0 + 7 < 64) (hr : row < 32) (k : Nat)
    (hk : k ≤ 8) :
    (∀ c r, ((List.range k).foldl (blitPixel b x0 row) (d, hit)).1.px c r =
      (d.px c r ^^ (decide (r = row ∧ c < x0 + k) && rowBit b x0 c))) ∧
    (((List.range k).foldl (blitPixel b x0 row) (d, hit)).2 = true ↔
      hit = true ∨ ∃ c, c < x0 + k ∧ rowBit b x0 c = true ∧ d.px c row = true) := by
  induction k with
  | zero =>
    constructor
    · intro c r
      by_cases h : x0 ≤ c
      · have : ¬c < x0 := by omega
        simp [this]
      · simp [rowBit, h]
    · constructor
      · intro h
        exact Or.inl (by simpa using h)
      · rintro (h | ⟨c, hc, hb, -⟩)
        · simpa using h
        · have : ¬x0 ≤ c := by omega
          simp [rowBit, this] at hb
  | succ k ih =>
    obtain ⟨ihp, ihh⟩ := ih (by omega)
    rw [List.range_succ, List.foldl_append]
    simp only [List.foldl_cons, List.foldl_nil]
    generalize hacc : (List.range k).foldl (blitPixel b x0 row) (d, hit) = acc at ihp ihh ⊢
    have hbit : rowBit b x0 (x0 + k) = b.getLsbD (7 - k) := by
      have : x0 ≤ x0 + k ∧ x0 + k < x0 + 8 := by omega
      simp [rowBit, this]
    have hsame : acc.1.px (x0 + k) row = d.px (x0 + k) row := by
      rw [ihp]
      simp
    unfold blitPixel
    by_cases hb : b.getLsbD (7 - k) = true
    · simp only [hb, if_true]
      constructor
      · intro c r
        rw [Display.px_setPx _ _ _ _ _ _ (by omega) hr]
        by_cases h : c = x0 + k ∧ r = row
        · obtain ⟨rfl, rfl⟩ := h
          simp [hsame, hbit, hb]
        · rw [if_neg h, ihp]
          congr 2
          rw [decide_eq_decide]
          constructor
          · rintro ⟨h1, h2⟩
            exact ⟨h1, by omega⟩
          · rintro ⟨h1, h2⟩
            exact ⟨h1, by
              have : c ≠ x0 + k := fun e => h ⟨e, h1⟩
              omega⟩
      · rw [Bool.or_eq_true, ihh, hsame]
        constructor
        · rintro ((h | ⟨c, hc, h⟩) | h)
          · exact Or.inl h
          · exact Or.inr ⟨c, by omega, h⟩
          · exact Or.inr ⟨x0 + k, by omega, by rw [hbit, hb], h⟩
        · rintro (h | ⟨c, hc, h⟩)
          · exact Or.inl (Or.inl h)
          · by_cases hck : c = x0 + k
            · subst hck
              exact Or.inr h.2
            · exact Or.inl (Or.inr ⟨c, by omega, h⟩)
    · simp only [hb]
      have hb' : rowBit b x0 (x0 + k) = false := by
        rw [hbit]
        simpa using hb
      constructor
      · intro c r
        simp only [Bool.false_eq_true, if_false]
        rw [ihp]
        by_cases hck : c = x0 + k
        · subst hck
          simp [hb']
        · congr 2
          rw [decide_eq_decide]
          constructor
          · rintro ⟨h1, h2⟩
            exact ⟨h1, by omega⟩
          · rintro ⟨h1, h2⟩
            exact ⟨h1, by omega⟩
      · simp only [Bool.false_eq_true, if_false]
        rw [ihh]
        constructor
        · rintro (h | ⟨c, hc, h⟩)
          · exact Or.inl h
          · exact Or.inr ⟨c, by omega, h⟩
        · rintro (h | ⟨c, hc, h⟩)
          · exact Or.inl h
          · by_cases hck : c = x0 + k
            · subst hck
              rw [hb'] at h
              simp at h
            · exact Or.inr ⟨c, by omega, h⟩

/-- A sprite row. -/
theorem blitRow_spec (b : Byte) (x0 row : Nat) (d : Display) (hit : Bool) (hx : x0 + 7 < 64) (hr : row < 32) :
    (∀ c r, (blitRow b x0 row (d, hit)).1.px c r = (d.px c r ^^ (decide (r = row) && rowBit b x0 c))) ∧
    ((blitRow b x0 row (d, hit)).2 = true ↔ hit = true ∨ ∃ c, rowBit b x0 c = true ∧ d.px c row = true) := by
  obtain ⟨hp, hh⟩ := blitColumns_spec b x0 row d hit hx hr 8 (by omega)
  have hlt : ∀ c, rowBit b x0 c = true → c < x0 + 8 := by
    intro c hc
    simp only [rowBit, Bool.and_eq_true, decide_eq_true_eq] at hc
    exact hc.1.2
  constructor
  · intro c r
    unfold blitRow
    rw [hp]
    by_cases hc : rowBit b x0 c = true
    · simp [hlt c hc]
    · simp [hc]
  · unfold blitRow
    rw [hh]
    constructor
    · rintro (h | ⟨c, -, h⟩)
      · exact Or.inl h
      · exact Or.inr ⟨c, h⟩
    · rintro (h | ⟨c, h⟩)
      · exact Or.inl h
      · exact Or.inr ⟨c, hlt c h.1, h⟩

/-- Whether the sprite of `n` rows at memory address `a`, drawn at column `x0` and row `y0`, has a set bit at a cell. -/
def spriteBit (m : Memory) (a x0 y0 n c r : Nat) : Bool :=
  decide (y0 ≤ r ∧ r < y0 + n) && rowBit (m.read (a + (r - y0))) x0 c

/-- A whole sprite: every pixel under a set bit is flipped, every other pixel is kept, and the collision is a set bit over a
pixel that was on (R186, R189). -/
theorem blitSprite_spec (m : Memory) (a x0 y0 n : Nat) (d : Display) (hx : x0 + 7 < 64) (hy : y0 + n ≤ 32) :
    (∀ c r, (blitSprite m a x0 y0 n d).1.px c r = (d.px c r ^^ spriteBit m a x0 y0 n c r)) ∧
    ((blitSprite m a x0 y0 n d).2 = true ↔ ∃ c r, spriteBit m a x0 y0 n c r = true ∧ d.px c r = true) := by
  unfold blitSprite
  induction n with
  | zero =>
    have : ∀ c r, spriteBit m a x0 y0 0 c r = false := by
      intro c r
      have : ¬(y0 ≤ r ∧ r < y0 + 0) := by omega
      simp only [spriteBit, this, decide_false, Bool.false_and]
    simp [this]
  | succ n ih =>
    obtain ⟨ihp, ihh⟩ := ih (by omega)
    rw [List.range_succ, List.foldl_append]
    simp only [List.foldl_cons, List.foldl_nil]
    generalize (List.range n).foldl (fun acc row => blitRow (m.read (a + row)) x0 (y0 + row) acc) (d, false) = acc
      at ihp ihh ⊢
    obtain ⟨e, hit⟩ := acc
    obtain ⟨hp, hh⟩ := blitRow_spec (m.read (a + n)) x0 (y0 + n) e hit hx (by omega)
    have hold : ∀ c r, r ≠ y0 + n → spriteBit m a x0 y0 (n + 1) c r = spriteBit m a x0 y0 n c r := by
      intro c r hr
      unfold spriteBit
      congr 1
      rw [decide_eq_decide]
      omega
    have hnew : ∀ c, spriteBit m a x0 y0 (n + 1) c (y0 + n) = rowBit (m.read (a + n)) x0 c := by
      intro c
      simp [spriteBit]
    have hnone : ∀ c, spriteBit m a x0 y0 n c (y0 + n) = false := by
      intro c
      simp [spriteBit]
    constructor
    · intro c r
      rw [hp]
      dsimp only at ihp
      rw [ihp]
      by_cases hr : r = y0 + n
      · subst hr
        simp [hnew, hnone]
      · simp [hr, hold c r hr]
    · rw [hh]
      dsimp only at ihp ihh
      rw [ihh]
      constructor
      · rintro (⟨c, r, hb, hd⟩ | ⟨c, hb, hd⟩)
        · have : r ≠ y0 + n := by
            rintro rfl
            rw [hnone] at hb
            simp at hb
          exact ⟨c, r, by rw [hold c r this]; exact hb, hd⟩
        · rw [ihp, hnone] at hd
          exact ⟨c, y0 + n, by rw [hnew]; exact hb, by simpa using hd⟩
      · rintro ⟨c, r, hb, hd⟩
        by_cases hr : r = y0 + n
        · subst hr
          rw [hnew] at hb
          exact Or.inr ⟨c, hb, by rw [ihp, hnone]; simpa using hd⟩
        · exact Or.inl ⟨c, r, by rw [← hold c r hr]; exact hb, hd⟩

end Sys2Proof.Machine
end

