-- ==== Sys2Proof/Laws/Memory.lean ====
section
/-! SUPPORT. Memory: every operation keeps the canonical form, a read after a write, and equal reads mean equal memories
(spec/20_memory.md R50, R52, R61). -/

namespace Sys2Proof.Machine

theorem Memory.wf_cons (a : Nat) (b : Byte) (rest : Memory) :
    Memory.wf ((a, b) :: rest) = true ↔
      a < 4096 ∧ b ≠ Memory.unlisted ∧ (∀ c ∈ rest, a < c.1) ∧ Memory.wf rest = true := by
  rw [Memory.wf]
  simp only [Bool.and_eq_true, decide_eq_true_eq, List.all_eq_true, and_assoc]

/-- An address below every entry reads as unlisted. -/
theorem Memory.read_below (m : Memory) (a : Nat) (h : ∀ c ∈ m, a < c.1) : m.read a = Memory.unlisted := by
  induction m with
  | nil => rfl
  | cons c rest ih =>
    obtain ⟨k, b⟩ := c
    have hk : a < k := h (k, b) (by simp)
    have : k ≠ a := by omega
    simp only [Memory.read, this, if_false]
    exact ih fun c hc => h c (by simp [hc])

/-- An address outside memory reads as unlisted. -/
theorem Memory.read_outside (m : Memory) (hm : m.wf = true) (a : Nat) (ha : 4096 ≤ a) : m.read a = Memory.unlisted := by
  induction m with
  | nil => rfl
  | cons c rest ih =>
    obtain ⟨k, b⟩ := c
    rw [Memory.wf_cons] at hm
    have : k ≠ a := by omega
    simp only [Memory.read, this, if_false]
    exact ih hm.2.2.2

theorem Memory.mem_place (a : Nat) (b : Byte) (m : Memory) (c : Host.Cell) (h : c ∈ Memory.place a b m) :
    c = (a, b) ∨ c ∈ m := by
  induction m with
  | nil =>
    simp only [Memory.place] at h
    split at h
    · simp at h
    · simpa using h
  | cons d rest ih =>
    obtain ⟨k, e⟩ := d
    simp only [Memory.place] at h
    split at h
    · split at h
      · exact Or.inr h
      · rcases List.mem_cons.1 h with h | h
        · exact Or.inl h
        · exact Or.inr h
    · split at h
      · split at h
        · exact Or.inr (by simp [h])
        · rcases List.mem_cons.1 h with h | h
          · exact Or.inl h
          · exact Or.inr (by simp [h])
      · rcases List.mem_cons.1 h with h | h
        · exact Or.inr (by simp [h])
        · rcases ih h with h | h
          · exact Or.inl h
          · exact Or.inr (by simp [h])

theorem Memory.wf_place (a : Nat) (b : Byte) (m : Memory) (ha : a < 4096) (hm : m.wf = true) :
    (Memory.place a b m).wf = true := by
  induction m with
  | nil =>
    simp only [Memory.place]
    split
    · rfl
    · rw [Memory.wf_cons]
      exact ⟨ha, ‹_›, by simp, rfl⟩
  | cons d rest ih =>
    obtain ⟨k, e⟩ := d
    have hcons := hm
    rw [Memory.wf_cons] at hm
    obtain ⟨hk, he, hall, hrest⟩ := hm
    simp only [Memory.place]
    split
    · rename_i hlt
      split
      · exact hcons
      · rw [Memory.wf_cons]
        refine ⟨ha, ‹_›, ?_, hcons⟩
        intro c hc
        rcases List.mem_cons.1 hc with hc | hc
        · simpa [hc] using hlt
        · exact lt_trans hlt (hall c hc)
    · split
      · rename_i heq
        subst heq
        split
        · exact hrest
        · rw [Memory.wf_cons]
          exact ⟨hk, ‹_›, hall, hrest⟩
      · rename_i hlt hne
        rw [Memory.wf_cons]
        refine ⟨hk, he, ?_, ih hrest⟩
        intro c hc
        rcases Memory.mem_place a b rest c hc with hc | hc
        · subst hc
          change k < a
          omega
        · exact hall c hc

/-- A store keeps the canonical form, whatever the address. -/
theorem Memory.wf_write (m : Memory) (a : Nat) (b : Byte) (hm : m.wf = true) : (m.write a b).wf = true := by
  unfold Memory.write
  split
  · exact Memory.wf_place a b m ‹_› hm
  · exact hm

/-- So does a store of several bytes. -/
theorem Memory.wf_writeBytes (bytes : List Byte) (m : Memory) (a : Nat) (hm : m.wf = true) :
    (m.writeBytes a bytes).wf = true := by
  induction bytes generalizing m a with
  | nil => exact hm
  | cons b rest ih => exact ih _ _ (Memory.wf_write m a b hm)

theorem Memory.read_place_other (a : Nat) (b : Byte) (m : Memory) (c : Nat) (h : c ≠ a) :
    (Memory.place a b m).read c = m.read c := by
  have h' : a ≠ c := fun e => h e.symm
  induction m with
  | nil =>
    simp only [Memory.place]
    split <;> simp [Memory.read, h']
  | cons d rest ih =>
    obtain ⟨k, e⟩ := d
    simp only [Memory.place]
    split
    · split <;> simp [Memory.read, h']
    · split
      · rename_i heq
        subst heq
        split <;> simp [Memory.read, h']
      · simp [Memory.read, ih]

theorem Memory.read_place_same (a : Nat) (b : Byte) (m : Memory) (hm : m.wf = true) :
    (Memory.place a b m).read a = b := by
  induction m with
  | nil =>
    simp only [Memory.place]
    split
    · rename_i hb
      simp [Memory.read, hb]
    · simp [Memory.read]
  | cons d rest ih =>
    obtain ⟨k, e⟩ := d
    rw [Memory.wf_cons] at hm
    obtain ⟨-, -, hall, hrest⟩ := hm
    simp only [Memory.place]
    split
    · rename_i hlt
      split
      · rename_i hb
        rw [hb]
        refine Memory.read_below _ _ ?_
        intro c hc
        rcases List.mem_cons.1 hc with hc | hc
        · simpa [hc] using hlt
        · exact lt_trans hlt (hall c hc)
      · simp [Memory.read]
    · split
      · rename_i heq
        subst heq
        split
        · rename_i hb
          rw [hb]
          exact Memory.read_below _ _ hall
        · simp [Memory.read]
      · rename_i hlt hne
        have : k ≠ a := fun e => hne e.symm
        simp [Memory.read, this, ih hrest]

/-- A store leaves every other address alone. -/
theorem Memory.read_write_other (m : Memory) (a : Nat) (b : Byte) (c : Nat) (h : c ≠ a) :
    (m.write a b).read c = m.read c := by
  unfold Memory.write
  split
  · exact Memory.read_place_other a b m c h
  · rfl

/-- A read after a store to the same address gives the byte stored (R61). -/
theorem Memory.read_write_same (m : Memory) (a : Nat) (b : Byte) (hm : m.wf = true) (ha : a < 4096) :
    (m.write a b).read a = b := by
  unfold Memory.write
  simp only [Config.memSize, ha, if_true]
  exact Memory.read_place_same a b m hm

/-- A store of several bytes leaves every address outside them alone. -/
theorem Memory.read_writeBytes_other (bytes : List Byte) (m : Memory) (a c : Nat) (h : c < a ∨ a + bytes.length ≤ c) :
    (m.writeBytes a bytes).read c = m.read c := by
  induction bytes generalizing m a with
  | nil => rfl
  | cons b rest ih =>
    simp only [List.length_cons] at h
    rw [Memory.writeBytes, ih _ _ (by omega), Memory.read_write_other _ _ _ _ (by omega)]

/-- A store of several bytes puts each at its own address. -/
theorem Memory.read_writeBytes_inside (bytes : List Byte) (m : Memory) (a k : Nat) (hm : m.wf = true)
    (hk : k < bytes.length) (ha : a + bytes.length ≤ 4096) : (m.writeBytes a bytes).read (a + k) = bytes[k] := by
  induction bytes generalizing m a k with
  | nil => simp at hk
  | cons b rest ih =>
    simp only [List.length_cons] at hk ha
    rw [Memory.writeBytes]
    cases k with
    | zero =>
      rw [Memory.read_writeBytes_other _ _ _ _ (by omega), Nat.add_zero, Memory.read_write_same _ _ _ hm (by omega)]
      rfl
    | succ k =>
      have := ih (m.write a b) (a + 1) k (Memory.wf_write m a b hm) (by omega) (by omega)
      rw [show a + (k + 1) = a + 1 + k by omega, this]
      rfl

/-- Memories in canonical form that read the same are the same. -/
theorem Memory.ext_read (m m' : Memory) (hm : m.wf = true) (hm' : m'.wf = true) (h : ∀ a, m.read a = m'.read a) :
    m = m' := by
  induction m generalizing m' with
  | nil =>
    cases m' with
    | nil => rfl
    | cons d rest =>
      obtain ⟨k, e⟩ := d
      rw [Memory.wf_cons] at hm'
      exact absurd (by simpa [Memory.read] using (h k).symm) hm'.2.1
  | cons c rest ih =>
    obtain ⟨k, b⟩ := c
    rw [Memory.wf_cons] at hm
    obtain ⟨-, hb, hall, hrest⟩ := hm
    cases m' with
    | nil => exact absurd (by simpa [Memory.read] using h k) hb
    | cons d rest' =>
      obtain ⟨k', b'⟩ := d
      rw [Memory.wf_cons] at hm'
      obtain ⟨-, hb', hall', hrest'⟩ := hm'
      have hkk : k = k' := by
        rcases lt_trichotomy k k' with hlt | heq | hlt
        · have h1 : Memory.read ((k', b') :: rest') k = Memory.unlisted := by
            refine Memory.read_below _ _ ?_
            intro c hc
            rcases List.mem_cons.1 hc with hc | hc
            · simpa [hc] using hlt
            · exact lt_trans hlt (hall' c hc)
          have h2 := h k
          rw [h1] at h2
          exact absurd (by simpa [Memory.read] using h2) hb
        · exact heq
        · have h1 : Memory.read ((k, b) :: rest) k' = Memory.unlisted := by
            refine Memory.read_below _ _ ?_
            intro c hc
            rcases List.mem_cons.1 hc with hc | hc
            · simpa [hc] using hlt
            · exact lt_trans hlt (hall c hc)
          have h2 := h k'
          rw [h1] at h2
          exact absurd (by simpa [Memory.read] using h2.symm) hb'
      subst hkk
      have hbb : b = b' := by simpa [Memory.read] using h k
      subst hbb
      have : rest = rest' := by
        refine ih rest' hrest hrest' fun a => ?_
        by_cases hka : k = a
        · subst hka
          rw [Memory.read_below _ _ hall, Memory.read_below _ _ hall']
        · simpa [Memory.read, hka] using h a
      rw [this]

end Sys2Proof.Machine
end

