-- ==== Sys2Proof/Laws/PerInstr.lean ====
section
/-! SUPPORT. A family of one statement per instruction: the word of the instruction matches its row of the opcode map
(spec/30_encoding.md R75). -/

namespace Sys2Proof.Laws.RowMatch

/-- The encoding of an instruction has the fixed bits of its row. -/
def Statement (i : Instr) : Prop := i.row.holds (encode i) = true

/-- A word with the dispatch nibble of a row that fixes no other bit. -/
theorem holds_dispatch (op : Nat) (w : Word) (h : w.toNat / 4096 = op) :
    (OpcodeRow.mk 0xF000 (BitVec.ofNat 16 (op * 4096))).holds w = true := by
  simp [OpcodeRow.holds, and_dispatch_mask, h]

theorem scd (n : Nibble) : Statement (.scd n) := by
  revert n
  unfold Statement
  decide

theorem cls : Statement .cls :=
  rfl

theorem ret : Statement .ret :=
  rfl

theorem scr : Statement .scr :=
  rfl

theorem scl : Statement .scl :=
  rfl

theorem exit : Statement .exit :=
  rfl

theorem low : Statement .low :=
  rfl

theorem high : Statement .high :=
  rfl

theorem sys (nnn : Addr12) : Statement (.sys nnn) := by
  have := nnn.isLt
  exact holds_dispatch 0x0 _ (by rw [show encode (.sys nnn) = packNNN 0x0 nnn from rfl, packNNN_toNat _ _ (by omega)]; omega)

theorem jp (nnn : Addr12) : Statement (.jp nnn) := by
  have := nnn.isLt
  exact holds_dispatch 0x1 _ (by rw [show encode (.jp nnn) = packNNN 0x1 nnn from rfl, packNNN_toNat _ _ (by omega)]; omega)

theorem call (nnn : Addr12) : Statement (.call nnn) := by
  have := nnn.isLt
  exact holds_dispatch 0x2 _ (by rw [show encode (.call nnn) = packNNN 0x2 nnn from rfl, packNNN_toNat _ _ (by omega)]; omega)

theorem seImm (x : Reg) (nn : Byte) : Statement (.seImm x nn) := by
  have := x.isLt
  have := nn.isLt
  exact holds_dispatch 0x3 _ (by rw [show encode (.seImm x nn) = packXNN 0x3 x nn from rfl, packXNN_toNat _ _ _ (by omega)]; omega)

theorem sneImm (x : Reg) (nn : Byte) : Statement (.sneImm x nn) := by
  have := x.isLt
  have := nn.isLt
  exact holds_dispatch 0x4 _ (by rw [show encode (.sneImm x nn) = packXNN 0x4 x nn from rfl, packXNN_toNat _ _ _ (by omega)]; omega)

theorem seReg (x : Reg) (y : Reg) (n : Nibble) : Statement (.seReg x y n) := by
  have := x.isLt
  have := y.isLt
  have := n.isLt
  exact holds_dispatch 0x5 _ (by rw [show encode (.seReg x y n) = packXYN 0x5 x y n from rfl, packXYN_toNat _ _ _ _ (by omega)]; omega)

theorem ldImm (x : Reg) (nn : Byte) : Statement (.ldImm x nn) := by
  have := x.isLt
  have := nn.isLt
  exact holds_dispatch 0x6 _ (by rw [show encode (.ldImm x nn) = packXNN 0x6 x nn from rfl, packXNN_toNat _ _ _ (by omega)]; omega)

theorem addImm (x : Reg) (nn : Byte) : Statement (.addImm x nn) := by
  have := x.isLt
  have := nn.isLt
  exact holds_dispatch 0x7 _ (by rw [show encode (.addImm x nn) = packXNN 0x7 x nn from rfl, packXNN_toNat _ _ _ (by omega)]; omega)

theorem ldReg (x : Reg) (y : Reg) : Statement (.ldReg x y) := by
  revert x y
  unfold Statement
  decide

theorem orReg (x : Reg) (y : Reg) : Statement (.orReg x y) := by
  revert x y
  unfold Statement
  decide

theorem andReg (x : Reg) (y : Reg) : Statement (.andReg x y) := by
  revert x y
  unfold Statement
  decide

theorem xorReg (x : Reg) (y : Reg) : Statement (.xorReg x y) := by
  revert x y
  unfold Statement
  decide

theorem addReg (x : Reg) (y : Reg) : Statement (.addReg x y) := by
  revert x y
  unfold Statement
  decide

theorem subReg (x : Reg) (y : Reg) : Statement (.subReg x y) := by
  revert x y
  unfold Statement
  decide

theorem shrReg (x : Reg) (y : Reg) : Statement (.shrReg x y) := by
  revert x y
  unfold Statement
  decide

theorem subnReg (x : Reg) (y : Reg) : Statement (.subnReg x y) := by
  revert x y
  unfold Statement
  decide

theorem shlReg (x : Reg) (y : Reg) : Statement (.shlReg x y) := by
  revert x y
  unfold Statement
  decide

theorem sneReg (x : Reg) (y : Reg) (n : Nibble) : Statement (.sneReg x y n) := by
  have := x.isLt
  have := y.isLt
  have := n.isLt
  exact holds_dispatch 0x9 _ (by rw [show encode (.sneReg x y n) = packXYN 0x9 x y n from rfl, packXYN_toNat _ _ _ _ (by omega)]; omega)

theorem ldI (nnn : Addr12) : Statement (.ldI nnn) := by
  have := nnn.isLt
  exact holds_dispatch 0xA _ (by rw [show encode (.ldI nnn) = packNNN 0xA nnn from rfl, packNNN_toNat _ _ (by omega)]; omega)

theorem jpV0 (nnn : Addr12) : Statement (.jpV0 nnn) := by
  have := nnn.isLt
  exact holds_dispatch 0xB _ (by rw [show encode (.jpV0 nnn) = packNNN 0xB nnn from rfl, packNNN_toNat _ _ (by omega)]; omega)

theorem rnd (x : Reg) (nn : Byte) : Statement (.rnd x nn) := by
  have := x.isLt
  have := nn.isLt
  exact holds_dispatch 0xC _ (by rw [show encode (.rnd x nn) = packXNN 0xC x nn from rfl, packXNN_toNat _ _ _ (by omega)]; omega)

theorem drw (x : Reg) (y : Reg) (n : Nibble) : Statement (.drw x y n) := by
  have := x.isLt
  have := y.isLt
  have := n.isLt
  exact holds_dispatch 0xD _ (by rw [show encode (.drw x y n) = packXYN 0xD x y n from rfl, packXYN_toNat _ _ _ _ (by omega)]; omega)

theorem skp (x : Reg) : Statement (.skp x) := by
  revert x
  unfold Statement
  decide

theorem sknp (x : Reg) : Statement (.sknp x) := by
  revert x
  unfold Statement
  decide

theorem ldVxDt (x : Reg) : Statement (.ldVxDt x) := by
  revert x
  unfold Statement
  decide

theorem ldVxK (x : Reg) : Statement (.ldVxK x) := by
  revert x
  unfold Statement
  decide

theorem ldDtVx (x : Reg) : Statement (.ldDtVx x) := by
  revert x
  unfold Statement
  decide

theorem ldStVx (x : Reg) : Statement (.ldStVx x) := by
  revert x
  unfold Statement
  decide

theorem addI (x : Reg) : Statement (.addI x) := by
  revert x
  unfold Statement
  decide

theorem ldF (x : Reg) : Statement (.ldF x) := by
  revert x
  unfold Statement
  decide

theorem ldB (x : Reg) : Statement (.ldB x) := by
  revert x
  unfold Statement
  decide

theorem storeRegs (x : Reg) : Statement (.storeRegs x) := by
  revert x
  unfold Statement
  decide

theorem loadRegs (x : Reg) : Statement (.loadRegs x) := by
  revert x
  unfold Statement
  decide

theorem illegal8 (x : Reg) (y : Reg) (n : Nibble) : Statement (.illegal8 x y n) := by
  have := x.isLt
  have := y.isLt
  have := n.isLt
  exact holds_dispatch 0x8 _ (by rw [show encode (.illegal8 x y n) = packXYN 0x8 x y n from rfl, packXYN_toNat _ _ _ _ (by omega)]; omega)

theorem illegalE (x : Reg) (nn : Byte) : Statement (.illegalE x nn) := by
  have := x.isLt
  have := nn.isLt
  exact holds_dispatch 0xE _ (by rw [show encode (.illegalE x nn) = packXNN 0xE x nn from rfl, packXNN_toNat _ _ _ (by omega)]; omega)

theorem illegalF (x : Reg) (nn : Byte) : Statement (.illegalF x nn) := by
  have := x.isLt
  have := nn.isLt
  exact holds_dispatch 0xF _ (by rw [show encode (.illegalF x nn) = packXNN 0xF x nn from rfl, packXNN_toNat _ _ _ (by omega)]; omega)

end Sys2Proof.Laws.RowMatch
end

