-- ==== Sys2Proof/Laws/State.lean ====
section
/-! SUPPORT. One lemma per field per update of the state: what the shared operations leave of each field. -/

namespace Sys2Proof.Machine

/-! ## memWrite -/

@[simp] theorem memWrite_v (a : Nat) (b : Byte) (s : State) : (memWrite a b s).v = s.v := rfl
@[simp] theorem memWrite_pc (a : Nat) (b : Byte) (s : State) : (memWrite a b s).pc = s.pc := rfl
@[simp] theorem memWrite_i (a : Nat) (b : Byte) (s : State) : (memWrite a b s).i = s.i := rfl
@[simp] theorem memWrite_sp (a : Nat) (b : Byte) (s : State) : (memWrite a b s).sp = s.sp := rfl
@[simp] theorem memWrite_dt (a : Nat) (b : Byte) (s : State) : (memWrite a b s).dt = s.dt := rfl
@[simp] theorem memWrite_st (a : Nat) (b : Byte) (s : State) : (memWrite a b s).st = s.st := rfl
@[simp] theorem memWrite_run (a : Nat) (b : Byte) (s : State) : (memWrite a b s).run = s.run := rfl
@[simp] theorem memWrite_rp (a : Nat) (b : Byte) (s : State) : (memWrite a b s).rp = s.rp := rfl
@[simp] theorem memWrite_fault (a : Nat) (b : Byte) (s : State) : (memWrite a b s).fault = s.fault := rfl
@[simp] theorem memWrite_finfo (a : Nat) (b : Byte) (s : State) : (memWrite a b s).finfo = s.finfo := rfl
@[simp] theorem memWrite_px (a : Nat) (b : Byte) (s : State) : (memWrite a b s).px = s.px := rfl
@[simp] theorem memWrite_mem (a : Nat) (b : Byte) (s : State) : (memWrite a b s).mem = s.mem.write a b := rfl
@[simp] theorem memWrite_keys (a : Nat) (b : Byte) (s : State) : (memWrite a b s).keys = s.keys := rfl
@[simp] theorem memWrite_beep (a : Nat) (b : Byte) (s : State) : (memWrite a b s).beep = s.beep := rfl
@[simp] theorem memWrite_draws (a : Nat) (b : Byte) (s : State) : (memWrite a b s).draws = s.draws := rfl

/-! ## writeV -/

@[simp] theorem writeV_v (r : Reg) (b : Byte) (s : State) : (writeV r b s).v = s.v.set r.val b := rfl
@[simp] theorem writeV_pc (r : Reg) (b : Byte) (s : State) : (writeV r b s).pc = s.pc := rfl
@[simp] theorem writeV_i (r : Reg) (b : Byte) (s : State) : (writeV r b s).i = s.i := rfl
@[simp] theorem writeV_sp (r : Reg) (b : Byte) (s : State) : (writeV r b s).sp = s.sp := rfl
@[simp] theorem writeV_dt (r : Reg) (b : Byte) (s : State) : (writeV r b s).dt = s.dt := rfl
@[simp] theorem writeV_st (r : Reg) (b : Byte) (s : State) : (writeV r b s).st = s.st := rfl
@[simp] theorem writeV_run (r : Reg) (b : Byte) (s : State) : (writeV r b s).run = s.run := rfl
@[simp] theorem writeV_rp (r : Reg) (b : Byte) (s : State) : (writeV r b s).rp = s.rp := rfl
@[simp] theorem writeV_fault (r : Reg) (b : Byte) (s : State) : (writeV r b s).fault = s.fault := rfl
@[simp] theorem writeV_finfo (r : Reg) (b : Byte) (s : State) : (writeV r b s).finfo = s.finfo := rfl
@[simp] theorem writeV_px (r : Reg) (b : Byte) (s : State) : (writeV r b s).px = s.px := rfl
@[simp] theorem writeV_mem (r : Reg) (b : Byte) (s : State) : (writeV r b s).mem = s.mem := rfl
@[simp] theorem writeV_keys (r : Reg) (b : Byte) (s : State) : (writeV r b s).keys = s.keys := rfl
@[simp] theorem writeV_beep (r : Reg) (b : Byte) (s : State) : (writeV r b s).beep = s.beep := rfl
@[simp] theorem writeV_draws (r : Reg) (b : Byte) (s : State) : (writeV r b s).draws = s.draws := rfl

/-! ## setPc -/

@[simp] theorem setPc_v (w : Word) (s : State) : (setPc w s).v = s.v := rfl
@[simp] theorem setPc_pc (w : Word) (s : State) : (setPc w s).pc = w := rfl
@[simp] theorem setPc_i (w : Word) (s : State) : (setPc w s).i = s.i := rfl
@[simp] theorem setPc_sp (w : Word) (s : State) : (setPc w s).sp = s.sp := rfl
@[simp] theorem setPc_dt (w : Word) (s : State) : (setPc w s).dt = s.dt := rfl
@[simp] theorem setPc_st (w : Word) (s : State) : (setPc w s).st = s.st := rfl
@[simp] theorem setPc_run (w : Word) (s : State) : (setPc w s).run = s.run := rfl
@[simp] theorem setPc_rp (w : Word) (s : State) : (setPc w s).rp = s.rp := rfl
@[simp] theorem setPc_fault (w : Word) (s : State) : (setPc w s).fault = s.fault := rfl
@[simp] theorem setPc_finfo (w : Word) (s : State) : (setPc w s).finfo = s.finfo := rfl
@[simp] theorem setPc_px (w : Word) (s : State) : (setPc w s).px = s.px := rfl
@[simp] theorem setPc_mem (w : Word) (s : State) : (setPc w s).mem = s.mem := rfl
@[simp] theorem setPc_keys (w : Word) (s : State) : (setPc w s).keys = s.keys := rfl
@[simp] theorem setPc_beep (w : Word) (s : State) : (setPc w s).beep = s.beep := rfl
@[simp] theorem setPc_draws (w : Word) (s : State) : (setPc w s).draws = s.draws := rfl

/-! ## setI -/

@[simp] theorem setI_v (a : Nat) (s : State) : (setI a s).v = s.v := rfl
@[simp] theorem setI_pc (a : Nat) (s : State) : (setI a s).pc = s.pc := rfl
@[simp] theorem setI_i (a : Nat) (s : State) : (setI a s).i = BitVec.ofNat 16 a := rfl
@[simp] theorem setI_sp (a : Nat) (s : State) : (setI a s).sp = s.sp := rfl
@[simp] theorem setI_dt (a : Nat) (s : State) : (setI a s).dt = s.dt := rfl
@[simp] theorem setI_st (a : Nat) (s : State) : (setI a s).st = s.st := rfl
@[simp] theorem setI_run (a : Nat) (s : State) : (setI a s).run = s.run := rfl
@[simp] theorem setI_rp (a : Nat) (s : State) : (setI a s).rp = s.rp := rfl
@[simp] theorem setI_fault (a : Nat) (s : State) : (setI a s).fault = s.fault := rfl
@[simp] theorem setI_finfo (a : Nat) (s : State) : (setI a s).finfo = s.finfo := rfl
@[simp] theorem setI_px (a : Nat) (s : State) : (setI a s).px = s.px := rfl
@[simp] theorem setI_mem (a : Nat) (s : State) : (setI a s).mem = s.mem := rfl
@[simp] theorem setI_keys (a : Nat) (s : State) : (setI a s).keys = s.keys := rfl
@[simp] theorem setI_beep (a : Nat) (s : State) : (setI a s).beep = s.beep := rfl
@[simp] theorem setI_draws (a : Nat) (s : State) : (setI a s).draws = s.draws := rfl

/-! ## setRepaint -/

@[simp] theorem setRepaint_v (s : State) : (setRepaint s).v = s.v := rfl
@[simp] theorem setRepaint_pc (s : State) : (setRepaint s).pc = s.pc := rfl
@[simp] theorem setRepaint_i (s : State) : (setRepaint s).i = s.i := rfl
@[simp] theorem setRepaint_sp (s : State) : (setRepaint s).sp = s.sp := rfl
@[simp] theorem setRepaint_dt (s : State) : (setRepaint s).dt = s.dt := rfl
@[simp] theorem setRepaint_st (s : State) : (setRepaint s).st = s.st := rfl
@[simp] theorem setRepaint_run (s : State) : (setRepaint s).run = s.run := rfl
@[simp] theorem setRepaint_rp (s : State) : (setRepaint s).rp = true := rfl
@[simp] theorem setRepaint_fault (s : State) : (setRepaint s).fault = s.fault := rfl
@[simp] theorem setRepaint_finfo (s : State) : (setRepaint s).finfo = s.finfo := rfl
@[simp] theorem setRepaint_px (s : State) : (setRepaint s).px = s.px := rfl
@[simp] theorem setRepaint_mem (s : State) : (setRepaint s).mem = s.mem := rfl
@[simp] theorem setRepaint_keys (s : State) : (setRepaint s).keys = s.keys := rfl
@[simp] theorem setRepaint_beep (s : State) : (setRepaint s).beep = s.beep := rfl
@[simp] theorem setRepaint_draws (s : State) : (setRepaint s).draws = s.draws := rfl

/-! ## setDt -/

@[simp] theorem setDt_v (b : Byte) (s : State) : (setDt b s).v = s.v := rfl
@[simp] theorem setDt_pc (b : Byte) (s : State) : (setDt b s).pc = s.pc := rfl
@[simp] theorem setDt_i (b : Byte) (s : State) : (setDt b s).i = s.i := rfl
@[simp] theorem setDt_sp (b : Byte) (s : State) : (setDt b s).sp = s.sp := rfl
@[simp] theorem setDt_dt (b : Byte) (s : State) : (setDt b s).dt = b := rfl
@[simp] theorem setDt_st (b : Byte) (s : State) : (setDt b s).st = s.st := rfl
@[simp] theorem setDt_run (b : Byte) (s : State) : (setDt b s).run = s.run := rfl
@[simp] theorem setDt_rp (b : Byte) (s : State) : (setDt b s).rp = s.rp := rfl
@[simp] theorem setDt_fault (b : Byte) (s : State) : (setDt b s).fault = s.fault := rfl
@[simp] theorem setDt_finfo (b : Byte) (s : State) : (setDt b s).finfo = s.finfo := rfl
@[simp] theorem setDt_px (b : Byte) (s : State) : (setDt b s).px = s.px := rfl
@[simp] theorem setDt_mem (b : Byte) (s : State) : (setDt b s).mem = s.mem := rfl
@[simp] theorem setDt_keys (b : Byte) (s : State) : (setDt b s).keys = s.keys := rfl
@[simp] theorem setDt_beep (b : Byte) (s : State) : (setDt b s).beep = s.beep := rfl
@[simp] theorem setDt_draws (b : Byte) (s : State) : (setDt b s).draws = s.draws := rfl

/-! ## setSt -/

@[simp] theorem setSt_v (b : Byte) (s : State) : (setSt b s).v = s.v := rfl
@[simp] theorem setSt_pc (b : Byte) (s : State) : (setSt b s).pc = s.pc := rfl
@[simp] theorem setSt_i (b : Byte) (s : State) : (setSt b s).i = s.i := rfl
@[simp] theorem setSt_sp (b : Byte) (s : State) : (setSt b s).sp = s.sp := rfl
@[simp] theorem setSt_dt (b : Byte) (s : State) : (setSt b s).dt = s.dt := rfl
@[simp] theorem setSt_st (b : Byte) (s : State) : (setSt b s).st = b := rfl
@[simp] theorem setSt_run (b : Byte) (s : State) : (setSt b s).run = s.run := rfl
@[simp] theorem setSt_rp (b : Byte) (s : State) : (setSt b s).rp = s.rp := rfl
@[simp] theorem setSt_fault (b : Byte) (s : State) : (setSt b s).fault = s.fault := rfl
@[simp] theorem setSt_finfo (b : Byte) (s : State) : (setSt b s).finfo = s.finfo := rfl
@[simp] theorem setSt_px (b : Byte) (s : State) : (setSt b s).px = s.px := rfl
@[simp] theorem setSt_mem (b : Byte) (s : State) : (setSt b s).mem = s.mem := rfl
@[simp] theorem setSt_keys (b : Byte) (s : State) : (setSt b s).keys = s.keys := rfl
@[simp] theorem setSt_beep (b : Byte) (s : State) : (setSt b s).beep = s.beep := rfl
@[simp] theorem setSt_draws (b : Byte) (s : State) : (setSt b s).draws = s.draws := rfl

/-! ## halt -/

@[simp] theorem halt_v (s : State) : (halt s).v = s.v := rfl
@[simp] theorem halt_pc (s : State) : (halt s).pc = s.pc := rfl
@[simp] theorem halt_i (s : State) : (halt s).i = s.i := rfl
@[simp] theorem halt_sp (s : State) : (halt s).sp = s.sp := rfl
@[simp] theorem halt_dt (s : State) : (halt s).dt = s.dt := rfl
@[simp] theorem halt_st (s : State) : (halt s).st = s.st := rfl
@[simp] theorem halt_run (s : State) : (halt s).run = false := rfl
@[simp] theorem halt_rp (s : State) : (halt s).rp = s.rp := rfl
@[simp] theorem halt_fault (s : State) : (halt s).fault = s.fault := rfl
@[simp] theorem halt_finfo (s : State) : (halt s).finfo = s.finfo := rfl
@[simp] theorem halt_px (s : State) : (halt s).px = s.px := rfl
@[simp] theorem halt_mem (s : State) : (halt s).mem = s.mem := rfl
@[simp] theorem halt_keys (s : State) : (halt s).keys = s.keys := rfl
@[simp] theorem halt_beep (s : State) : (halt s).beep = s.beep := rfl
@[simp] theorem halt_draws (s : State) : (halt s).draws = s.draws := rfl

/-! ## countDraw -/

@[simp] theorem countDraw_v (s : State) : (countDraw s).v = s.v := rfl
@[simp] theorem countDraw_pc (s : State) : (countDraw s).pc = s.pc := rfl
@[simp] theorem countDraw_i (s : State) : (countDraw s).i = s.i := rfl
@[simp] theorem countDraw_sp (s : State) : (countDraw s).sp = s.sp := rfl
@[simp] theorem countDraw_dt (s : State) : (countDraw s).dt = s.dt := rfl
@[simp] theorem countDraw_st (s : State) : (countDraw s).st = s.st := rfl
@[simp] theorem countDraw_run (s : State) : (countDraw s).run = s.run := rfl
@[simp] theorem countDraw_rp (s : State) : (countDraw s).rp = s.rp := rfl
@[simp] theorem countDraw_fault (s : State) : (countDraw s).fault = s.fault := rfl
@[simp] theorem countDraw_finfo (s : State) : (countDraw s).finfo = s.finfo := rfl
@[simp] theorem countDraw_px (s : State) : (countDraw s).px = s.px := rfl
@[simp] theorem countDraw_mem (s : State) : (countDraw s).mem = s.mem := rfl
@[simp] theorem countDraw_keys (s : State) : (countDraw s).keys = s.keys := rfl
@[simp] theorem countDraw_beep (s : State) : (countDraw s).beep = s.beep := rfl
@[simp] theorem countDraw_draws (s : State) : (countDraw s).draws = s.draws + 1 := rfl

/-! ## takeFault -/

@[simp] theorem takeFault_v (c : FaultCode) (w : Word) (s : State) : (takeFault c w s).v = s.v := rfl
@[simp] theorem takeFault_pc (c : FaultCode) (w : Word) (s : State) : (takeFault c w s).pc = s.pc := rfl
@[simp] theorem takeFault_i (c : FaultCode) (w : Word) (s : State) : (takeFault c w s).i = s.i := rfl
@[simp] theorem takeFault_sp (c : FaultCode) (w : Word) (s : State) : (takeFault c w s).sp = s.sp := rfl
@[simp] theorem takeFault_dt (c : FaultCode) (w : Word) (s : State) : (takeFault c w s).dt = s.dt := rfl
@[simp] theorem takeFault_st (c : FaultCode) (w : Word) (s : State) : (takeFault c w s).st = s.st := rfl
@[simp] theorem takeFault_run (c : FaultCode) (w : Word) (s : State) : (takeFault c w s).run = false := rfl
@[simp] theorem takeFault_rp (c : FaultCode) (w : Word) (s : State) : (takeFault c w s).rp = s.rp := rfl
@[simp] theorem takeFault_fault (c : FaultCode) (w : Word) (s : State) : (takeFault c w s).fault = c := rfl
@[simp] theorem takeFault_finfo (c : FaultCode) (w : Word) (s : State) : (takeFault c w s).finfo = w := rfl
@[simp] theorem takeFault_px (c : FaultCode) (w : Word) (s : State) : (takeFault c w s).px = s.px := rfl
@[simp] theorem takeFault_mem (c : FaultCode) (w : Word) (s : State) : (takeFault c w s).mem = s.mem := rfl
@[simp] theorem takeFault_keys (c : FaultCode) (w : Word) (s : State) : (takeFault c w s).keys = s.keys := rfl
@[simp] theorem takeFault_beep (c : FaultCode) (w : Word) (s : State) : (takeFault c w s).beep = s.beep := rfl
@[simp] theorem takeFault_draws (c : FaultCode) (w : Word) (s : State) : (takeFault c w s).draws = s.draws := rfl

/-! ## raiseDecode -/

@[simp] theorem raiseDecode_v (i : Instr) (s : State) : (raiseDecode i s).v = s.v := rfl
@[simp] theorem raiseDecode_pc (i : Instr) (s : State) : (raiseDecode i s).pc = s.pc := rfl
@[simp] theorem raiseDecode_i (i : Instr) (s : State) : (raiseDecode i s).i = s.i := rfl
@[simp] theorem raiseDecode_sp (i : Instr) (s : State) : (raiseDecode i s).sp = s.sp := rfl
@[simp] theorem raiseDecode_dt (i : Instr) (s : State) : (raiseDecode i s).dt = s.dt := rfl
@[simp] theorem raiseDecode_st (i : Instr) (s : State) : (raiseDecode i s).st = s.st := rfl
@[simp] theorem raiseDecode_run (i : Instr) (s : State) : (raiseDecode i s).run = false := rfl
@[simp] theorem raiseDecode_rp (i : Instr) (s : State) : (raiseDecode i s).rp = s.rp := rfl
@[simp] theorem raiseDecode_fault (i : Instr) (s : State) : (raiseDecode i s).fault = .decode := rfl
@[simp] theorem raiseDecode_finfo (i : Instr) (s : State) : (raiseDecode i s).finfo = encode i := rfl
@[simp] theorem raiseDecode_px (i : Instr) (s : State) : (raiseDecode i s).px = s.px := rfl
@[simp] theorem raiseDecode_mem (i : Instr) (s : State) : (raiseDecode i s).mem = s.mem := rfl
@[simp] theorem raiseDecode_keys (i : Instr) (s : State) : (raiseDecode i s).keys = s.keys := rfl
@[simp] theorem raiseDecode_beep (i : Instr) (s : State) : (raiseDecode i s).beep = s.beep := rfl
@[simp] theorem raiseDecode_draws (i : Instr) (s : State) : (raiseDecode i s).draws = s.draws := rfl

/-! ## writeFlag -/

@[simp] theorem writeFlag_v (f : Bool) (s : State) : (writeFlag f s).v = s.v.set 15 (flagByte f) := rfl
@[simp] theorem writeFlag_pc (f : Bool) (s : State) : (writeFlag f s).pc = s.pc := rfl
@[simp] theorem writeFlag_i (f : Bool) (s : State) : (writeFlag f s).i = s.i := rfl
@[simp] theorem writeFlag_sp (f : Bool) (s : State) : (writeFlag f s).sp = s.sp := rfl
@[simp] theorem writeFlag_dt (f : Bool) (s : State) : (writeFlag f s).dt = s.dt := rfl
@[simp] theorem writeFlag_st (f : Bool) (s : State) : (writeFlag f s).st = s.st := rfl
@[simp] theorem writeFlag_run (f : Bool) (s : State) : (writeFlag f s).run = s.run := rfl
@[simp] theorem writeFlag_rp (f : Bool) (s : State) : (writeFlag f s).rp = s.rp := rfl
@[simp] theorem writeFlag_fault (f : Bool) (s : State) : (writeFlag f s).fault = s.fault := rfl
@[simp] theorem writeFlag_finfo (f : Bool) (s : State) : (writeFlag f s).finfo = s.finfo := rfl
@[simp] theorem writeFlag_px (f : Bool) (s : State) : (writeFlag f s).px = s.px := rfl
@[simp] theorem writeFlag_mem (f : Bool) (s : State) : (writeFlag f s).mem = s.mem := rfl
@[simp] theorem writeFlag_keys (f : Bool) (s : State) : (writeFlag f s).keys = s.keys := rfl
@[simp] theorem writeFlag_beep (f : Bool) (s : State) : (writeFlag f s).beep = s.beep := rfl
@[simp] theorem writeFlag_draws (f : Bool) (s : State) : (writeFlag f s).draws = s.draws := rfl

/-! ## paint -/

@[simp] theorem paint_v (d : Display) (s : State) : (paint d s).v = s.v := rfl
@[simp] theorem paint_pc (d : Display) (s : State) : (paint d s).pc = s.pc := rfl
@[simp] theorem paint_i (d : Display) (s : State) : (paint d s).i = s.i := rfl
@[simp] theorem paint_sp (d : Display) (s : State) : (paint d s).sp = s.sp := rfl
@[simp] theorem paint_dt (d : Display) (s : State) : (paint d s).dt = s.dt := rfl
@[simp] theorem paint_st (d : Display) (s : State) : (paint d s).st = s.st := rfl
@[simp] theorem paint_run (d : Display) (s : State) : (paint d s).run = s.run := rfl
@[simp] theorem paint_rp (d : Display) (s : State) : (paint d s).rp = true := rfl
@[simp] theorem paint_fault (d : Display) (s : State) : (paint d s).fault = s.fault := rfl
@[simp] theorem paint_finfo (d : Display) (s : State) : (paint d s).finfo = s.finfo := rfl
@[simp] theorem paint_px (d : Display) (s : State) : (paint d s).px = d := rfl
@[simp] theorem paint_mem (d : Display) (s : State) : (paint d s).mem = s.mem := rfl
@[simp] theorem paint_keys (d : Display) (s : State) : (paint d s).keys = s.keys := rfl
@[simp] theorem paint_beep (d : Display) (s : State) : (paint d s).beep = s.beep := rfl
@[simp] theorem paint_draws (d : Display) (s : State) : (paint d s).draws = s.draws := rfl

/-! ## push16 -/

@[simp] theorem push16_v (w : Word) (s : State) : (push16 w s).v = s.v := rfl
@[simp] theorem push16_pc (w : Word) (s : State) : (push16 w s).pc = s.pc := rfl
@[simp] theorem push16_i (w : Word) (s : State) : (push16 w s).i = s.i := rfl
@[simp] theorem push16_sp (w : Word) (s : State) : (push16 w s).sp = s.sp + 2 := rfl
@[simp] theorem push16_dt (w : Word) (s : State) : (push16 w s).dt = s.dt := rfl
@[simp] theorem push16_st (w : Word) (s : State) : (push16 w s).st = s.st := rfl
@[simp] theorem push16_run (w : Word) (s : State) : (push16 w s).run = s.run := rfl
@[simp] theorem push16_rp (w : Word) (s : State) : (push16 w s).rp = s.rp := rfl
@[simp] theorem push16_fault (w : Word) (s : State) : (push16 w s).fault = s.fault := rfl
@[simp] theorem push16_finfo (w : Word) (s : State) : (push16 w s).finfo = s.finfo := rfl
@[simp] theorem push16_px (w : Word) (s : State) : (push16 w s).px = s.px := rfl
@[simp] theorem push16_mem (w : Word) (s : State) : (push16 w s).mem = (s.mem.write s.sp.toNat (lowByte w)).write (s.sp.toNat + 1) (highByte w) := rfl
@[simp] theorem push16_keys (w : Word) (s : State) : (push16 w s).keys = s.keys := rfl
@[simp] theorem push16_beep (w : Word) (s : State) : (push16 w s).beep = s.beep := rfl
@[simp] theorem push16_draws (w : Word) (s : State) : (push16 w s).draws = s.draws := rfl

/-! ## haltedCycle -/

@[simp] theorem haltedCycle_v (s : State) : (haltedCycle s).v = s.v := rfl
@[simp] theorem haltedCycle_pc (s : State) : (haltedCycle s).pc = s.pc := rfl
@[simp] theorem haltedCycle_i (s : State) : (haltedCycle s).i = s.i := rfl
@[simp] theorem haltedCycle_sp (s : State) : (haltedCycle s).sp = s.sp := rfl
@[simp] theorem haltedCycle_dt (s : State) : (haltedCycle s).dt = s.dt := rfl
@[simp] theorem haltedCycle_st (s : State) : (haltedCycle s).st = s.st := rfl
@[simp] theorem haltedCycle_run (s : State) : (haltedCycle s).run = s.run := rfl
@[simp] theorem haltedCycle_rp (s : State) : (haltedCycle s).rp = s.rp := rfl
@[simp] theorem haltedCycle_fault (s : State) : (haltedCycle s).fault = s.fault := rfl
@[simp] theorem haltedCycle_finfo (s : State) : (haltedCycle s).finfo = s.finfo := rfl
@[simp] theorem haltedCycle_px (s : State) : (haltedCycle s).px = s.px := rfl
@[simp] theorem haltedCycle_mem (s : State) : (haltedCycle s).mem = s.mem := rfl
@[simp] theorem haltedCycle_keys (s : State) : (haltedCycle s).keys = s.keys := rfl
@[simp] theorem haltedCycle_beep (s : State) : (haltedCycle s).beep = false := rfl
@[simp] theorem haltedCycle_draws (s : State) : (haltedCycle s).draws = s.draws := rfl

/-! ## fetchFault -/

@[simp] theorem fetchFault_v (s : State) : (fetchFault s).v = s.v := rfl
@[simp] theorem fetchFault_pc (s : State) : (fetchFault s).pc = s.pc := rfl
@[simp] theorem fetchFault_i (s : State) : (fetchFault s).i = s.i := rfl
@[simp] theorem fetchFault_sp (s : State) : (fetchFault s).sp = s.sp := rfl
@[simp] theorem fetchFault_dt (s : State) : (fetchFault s).dt = s.dt := rfl
@[simp] theorem fetchFault_st (s : State) : (fetchFault s).st = s.st := rfl
@[simp] theorem fetchFault_run (s : State) : (fetchFault s).run = false := rfl
@[simp] theorem fetchFault_rp (s : State) : (fetchFault s).rp = s.rp := rfl
@[simp] theorem fetchFault_fault (s : State) : (fetchFault s).fault = .fetchRange := rfl
@[simp] theorem fetchFault_finfo (s : State) : (fetchFault s).finfo = s.pc := rfl
@[simp] theorem fetchFault_px (s : State) : (fetchFault s).px = s.px := rfl
@[simp] theorem fetchFault_mem (s : State) : (fetchFault s).mem = s.mem := rfl
@[simp] theorem fetchFault_keys (s : State) : (fetchFault s).keys = s.keys := rfl
@[simp] theorem fetchFault_beep (s : State) : (fetchFault s).beep = false := rfl
@[simp] theorem fetchFault_draws (s : State) : (fetchFault s).draws = s.draws := rfl

/-! ## advance -/

@[simp] theorem advance_v (s : State) : (advance s).v = s.v := rfl
@[simp] theorem advance_pc (s : State) : (advance s).pc = s.pc + 2 := rfl
@[simp] theorem advance_i (s : State) : (advance s).i = s.i := rfl
@[simp] theorem advance_sp (s : State) : (advance s).sp = s.sp := rfl
@[simp] theorem advance_dt (s : State) : (advance s).dt = s.dt := rfl
@[simp] theorem advance_st (s : State) : (advance s).st = s.st := rfl
@[simp] theorem advance_run (s : State) : (advance s).run = s.run := rfl
@[simp] theorem advance_rp (s : State) : (advance s).rp = s.rp := rfl
@[simp] theorem advance_fault (s : State) : (advance s).fault = s.fault := rfl
@[simp] theorem advance_finfo (s : State) : (advance s).finfo = s.finfo := rfl
@[simp] theorem advance_px (s : State) : (advance s).px = s.px := rfl
@[simp] theorem advance_mem (s : State) : (advance s).mem = s.mem := rfl
@[simp] theorem advance_keys (s : State) : (advance s).keys = s.keys := rfl
@[simp] theorem advance_beep (s : State) : (advance s).beep = false := rfl
@[simp] theorem advance_draws (s : State) : (advance s).draws = s.draws := rfl

/-! ## tick -/

@[simp] theorem tick_v (s : State) : (tick s).v = s.v := rfl
@[simp] theorem tick_pc (s : State) : (tick s).pc = s.pc := rfl
@[simp] theorem tick_i (s : State) : (tick s).i = s.i := rfl
@[simp] theorem tick_sp (s : State) : (tick s).sp = s.sp := rfl
@[simp] theorem tick_dt (s : State) : (tick s).dt = countDown s.dt := rfl
@[simp] theorem tick_st (s : State) : (tick s).st = countDown s.st := rfl
@[simp] theorem tick_run (s : State) : (tick s).run = s.run := rfl
@[simp] theorem tick_rp (s : State) : (tick s).rp = s.rp := rfl
@[simp] theorem tick_fault (s : State) : (tick s).fault = s.fault := rfl
@[simp] theorem tick_finfo (s : State) : (tick s).finfo = s.finfo := rfl
@[simp] theorem tick_px (s : State) : (tick s).px = s.px := rfl
@[simp] theorem tick_mem (s : State) : (tick s).mem = s.mem := rfl
@[simp] theorem tick_keys (s : State) : (tick s).keys = s.keys := rfl
@[simp] theorem tick_beep (s : State) : (tick s).beep = (s.st == 1) := rfl
@[simp] theorem tick_draws (s : State) : (tick s).draws = s.draws := rfl

/-! ## clearRepaint -/

@[simp] theorem clearRepaint_v (s : State) : (clearRepaint s).v = s.v := rfl
@[simp] theorem clearRepaint_pc (s : State) : (clearRepaint s).pc = s.pc := rfl
@[simp] theorem clearRepaint_i (s : State) : (clearRepaint s).i = s.i := rfl
@[simp] theorem clearRepaint_sp (s : State) : (clearRepaint s).sp = s.sp := rfl
@[simp] theorem clearRepaint_dt (s : State) : (clearRepaint s).dt = s.dt := rfl
@[simp] theorem clearRepaint_st (s : State) : (clearRepaint s).st = s.st := rfl
@[simp] theorem clearRepaint_run (s : State) : (clearRepaint s).run = s.run := rfl
@[simp] theorem clearRepaint_rp (s : State) : (clearRepaint s).rp = false := rfl
@[simp] theorem clearRepaint_fault (s : State) : (clearRepaint s).fault = s.fault := rfl
@[simp] theorem clearRepaint_finfo (s : State) : (clearRepaint s).finfo = s.finfo := rfl
@[simp] theorem clearRepaint_px (s : State) : (clearRepaint s).px = s.px := rfl
@[simp] theorem clearRepaint_mem (s : State) : (clearRepaint s).mem = s.mem := rfl
@[simp] theorem clearRepaint_keys (s : State) : (clearRepaint s).keys = s.keys := rfl
@[simp] theorem clearRepaint_beep (s : State) : (clearRepaint s).beep = s.beep := rfl
@[simp] theorem clearRepaint_draws (s : State) : (clearRepaint s).draws = s.draws := rfl

/-! ## driveKeys -/

@[simp] theorem driveKeys_v (k : Vector Bool 16) (s : State) : (driveKeys k s).v = s.v := rfl
@[simp] theorem driveKeys_pc (k : Vector Bool 16) (s : State) : (driveKeys k s).pc = s.pc := rfl
@[simp] theorem driveKeys_i (k : Vector Bool 16) (s : State) : (driveKeys k s).i = s.i := rfl
@[simp] theorem driveKeys_sp (k : Vector Bool 16) (s : State) : (driveKeys k s).sp = s.sp := rfl
@[simp] theorem driveKeys_dt (k : Vector Bool 16) (s : State) : (driveKeys k s).dt = s.dt := rfl
@[simp] theorem driveKeys_st (k : Vector Bool 16) (s : State) : (driveKeys k s).st = s.st := rfl
@[simp] theorem driveKeys_run (k : Vector Bool 16) (s : State) : (driveKeys k s).run = s.run := rfl
@[simp] theorem driveKeys_rp (k : Vector Bool 16) (s : State) : (driveKeys k s).rp = s.rp := rfl
@[simp] theorem driveKeys_fault (k : Vector Bool 16) (s : State) : (driveKeys k s).fault = s.fault := rfl
@[simp] theorem driveKeys_finfo (k : Vector Bool 16) (s : State) : (driveKeys k s).finfo = s.finfo := rfl
@[simp] theorem driveKeys_px (k : Vector Bool 16) (s : State) : (driveKeys k s).px = s.px := rfl
@[simp] theorem driveKeys_mem (k : Vector Bool 16) (s : State) : (driveKeys k s).mem = s.mem := rfl
@[simp] theorem driveKeys_keys (k : Vector Bool 16) (s : State) : (driveKeys k s).keys = k := rfl
@[simp] theorem driveKeys_beep (k : Vector Bool 16) (s : State) : (driveKeys k s).beep = s.beep := rfl
@[simp] theorem driveKeys_draws (k : Vector Bool 16) (s : State) : (driveKeys k s).draws = s.draws := rfl

/-! ## randomInto -/

@[simp] theorem randomInto_v (b : Byte) (x : Reg) (nn : Byte) (s : State) : (randomInto b x nn s).v = s.v.set x.val (b &&& nn) := rfl
@[simp] theorem randomInto_pc (b : Byte) (x : Reg) (nn : Byte) (s : State) : (randomInto b x nn s).pc = s.pc := rfl
@[simp] theorem randomInto_i (b : Byte) (x : Reg) (nn : Byte) (s : State) : (randomInto b x nn s).i = s.i := rfl
@[simp] theorem randomInto_sp (b : Byte) (x : Reg) (nn : Byte) (s : State) : (randomInto b x nn s).sp = s.sp := rfl
@[simp] theorem randomInto_dt (b : Byte) (x : Reg) (nn : Byte) (s : State) : (randomInto b x nn s).dt = s.dt := rfl
@[simp] theorem randomInto_st (b : Byte) (x : Reg) (nn : Byte) (s : State) : (randomInto b x nn s).st = s.st := rfl
@[simp] theorem randomInto_run (b : Byte) (x : Reg) (nn : Byte) (s : State) : (randomInto b x nn s).run = s.run := rfl
@[simp] theorem randomInto_rp (b : Byte) (x : Reg) (nn : Byte) (s : State) : (randomInto b x nn s).rp = s.rp := rfl
@[simp] theorem randomInto_fault (b : Byte) (x : Reg) (nn : Byte) (s : State) : (randomInto b x nn s).fault = s.fault := rfl
@[simp] theorem randomInto_finfo (b : Byte) (x : Reg) (nn : Byte) (s : State) : (randomInto b x nn s).finfo = s.finfo := rfl
@[simp] theorem randomInto_px (b : Byte) (x : Reg) (nn : Byte) (s : State) : (randomInto b x nn s).px = s.px := rfl
@[simp] theorem randomInto_mem (b : Byte) (x : Reg) (nn : Byte) (s : State) : (randomInto b x nn s).mem = s.mem := rfl
@[simp] theorem randomInto_keys (b : Byte) (x : Reg) (nn : Byte) (s : State) : (randomInto b x nn s).keys = s.keys := rfl
@[simp] theorem randomInto_beep (b : Byte) (x : Reg) (nn : Byte) (s : State) : (randomInto b x nn s).beep = s.beep := rfl
@[simp] theorem randomInto_draws (b : Byte) (x : Reg) (nn : Byte) (s : State) : (randomInto b x nn s).draws = s.draws := rfl

/-! ## subtractInto -/

@[simp] theorem subtractInto_v (x y : Reg) (s : State) : (subtractInto x y s).v = s.v.set x.val (readV s x - readV s y) := rfl
@[simp] theorem subtractInto_pc (x y : Reg) (s : State) : (subtractInto x y s).pc = s.pc := rfl
@[simp] theorem subtractInto_i (x y : Reg) (s : State) : (subtractInto x y s).i = s.i := rfl
@[simp] theorem subtractInto_sp (x y : Reg) (s : State) : (subtractInto x y s).sp = s.sp := rfl
@[simp] theorem subtractInto_dt (x y : Reg) (s : State) : (subtractInto x y s).dt = s.dt := rfl
@[simp] theorem subtractInto_st (x y : Reg) (s : State) : (subtractInto x y s).st = s.st := rfl
@[simp] theorem subtractInto_run (x y : Reg) (s : State) : (subtractInto x y s).run = s.run := rfl
@[simp] theorem subtractInto_rp (x y : Reg) (s : State) : (subtractInto x y s).rp = s.rp := rfl
@[simp] theorem subtractInto_fault (x y : Reg) (s : State) : (subtractInto x y s).fault = s.fault := rfl
@[simp] theorem subtractInto_finfo (x y : Reg) (s : State) : (subtractInto x y s).finfo = s.finfo := rfl
@[simp] theorem subtractInto_px (x y : Reg) (s : State) : (subtractInto x y s).px = s.px := rfl
@[simp] theorem subtractInto_mem (x y : Reg) (s : State) : (subtractInto x y s).mem = s.mem := rfl
@[simp] theorem subtractInto_keys (x y : Reg) (s : State) : (subtractInto x y s).keys = s.keys := rfl
@[simp] theorem subtractInto_beep (x y : Reg) (s : State) : (subtractInto x y s).beep = s.beep := rfl
@[simp] theorem subtractInto_draws (x y : Reg) (s : State) : (subtractInto x y s).draws = s.draws := rfl

/-! ## shiftLeftInto -/

@[simp] theorem shiftLeftInto_v (x : Reg) (s : State) : (shiftLeftInto x s).v = s.v.set x.val (readV s x <<< 1) := rfl
@[simp] theorem shiftLeftInto_pc (x : Reg) (s : State) : (shiftLeftInto x s).pc = s.pc := rfl
@[simp] theorem shiftLeftInto_i (x : Reg) (s : State) : (shiftLeftInto x s).i = s.i := rfl
@[simp] theorem shiftLeftInto_sp (x : Reg) (s : State) : (shiftLeftInto x s).sp = s.sp := rfl
@[simp] theorem shiftLeftInto_dt (x : Reg) (s : State) : (shiftLeftInto x s).dt = s.dt := rfl
@[simp] theorem shiftLeftInto_st (x : Reg) (s : State) : (shiftLeftInto x s).st = s.st := rfl
@[simp] theorem shiftLeftInto_run (x : Reg) (s : State) : (shiftLeftInto x s).run = s.run := rfl
@[simp] theorem shiftLeftInto_rp (x : Reg) (s : State) : (shiftLeftInto x s).rp = s.rp := rfl
@[simp] theorem shiftLeftInto_fault (x : Reg) (s : State) : (shiftLeftInto x s).fault = s.fault := rfl
@[simp] theorem shiftLeftInto_finfo (x : Reg) (s : State) : (shiftLeftInto x s).finfo = s.finfo := rfl
@[simp] theorem shiftLeftInto_px (x : Reg) (s : State) : (shiftLeftInto x s).px = s.px := rfl
@[simp] theorem shiftLeftInto_mem (x : Reg) (s : State) : (shiftLeftInto x s).mem = s.mem := rfl
@[simp] theorem shiftLeftInto_keys (x : Reg) (s : State) : (shiftLeftInto x s).keys = s.keys := rfl
@[simp] theorem shiftLeftInto_beep (x : Reg) (s : State) : (shiftLeftInto x s).beep = s.beep := rfl
@[simp] theorem shiftLeftInto_draws (x : Reg) (s : State) : (shiftLeftInto x s).draws = s.draws := rfl

/-! ## addToIndex -/

@[simp] theorem addToIndex_v (m : Nat) (x : Reg) (s : State) : (addToIndex m x s).v = s.v := rfl
@[simp] theorem addToIndex_pc (m : Nat) (x : Reg) (s : State) : (addToIndex m x s).pc = s.pc := rfl
@[simp] theorem addToIndex_i (m : Nat) (x : Reg) (s : State) : (addToIndex m x s).i = BitVec.ofNat 16 ((s.i.toNat + (readV s x).toNat) % m) := rfl
@[simp] theorem addToIndex_sp (m : Nat) (x : Reg) (s : State) : (addToIndex m x s).sp = s.sp := rfl
@[simp] theorem addToIndex_dt (m : Nat) (x : Reg) (s : State) : (addToIndex m x s).dt = s.dt := rfl
@[simp] theorem addToIndex_st (m : Nat) (x : Reg) (s : State) : (addToIndex m x s).st = s.st := rfl
@[simp] theorem addToIndex_run (m : Nat) (x : Reg) (s : State) : (addToIndex m x s).run = s.run := rfl
@[simp] theorem addToIndex_rp (m : Nat) (x : Reg) (s : State) : (addToIndex m x s).rp = s.rp := rfl
@[simp] theorem addToIndex_fault (m : Nat) (x : Reg) (s : State) : (addToIndex m x s).fault = s.fault := rfl
@[simp] theorem addToIndex_finfo (m : Nat) (x : Reg) (s : State) : (addToIndex m x s).finfo = s.finfo := rfl
@[simp] theorem addToIndex_px (m : Nat) (x : Reg) (s : State) : (addToIndex m x s).px = s.px := rfl
@[simp] theorem addToIndex_mem (m : Nat) (x : Reg) (s : State) : (addToIndex m x s).mem = s.mem := rfl
@[simp] theorem addToIndex_keys (m : Nat) (x : Reg) (s : State) : (addToIndex m x s).keys = s.keys := rfl
@[simp] theorem addToIndex_beep (m : Nat) (x : Reg) (s : State) : (addToIndex m x s).beep = s.beep := rfl
@[simp] theorem addToIndex_draws (m : Nat) (x : Reg) (s : State) : (addToIndex m x s).draws = s.draws := rfl

/-! ## shiftRight -/

@[simp] theorem shiftRight_pc (d : ShrDest) (x y : Reg) (s : State) : (shiftRight d x y s).pc = s.pc := by cases d <;> rfl
@[simp] theorem shiftRight_i (d : ShrDest) (x y : Reg) (s : State) : (shiftRight d x y s).i = s.i := by cases d <;> rfl
@[simp] theorem shiftRight_sp (d : ShrDest) (x y : Reg) (s : State) : (shiftRight d x y s).sp = s.sp := by cases d <;> rfl
@[simp] theorem shiftRight_dt (d : ShrDest) (x y : Reg) (s : State) : (shiftRight d x y s).dt = s.dt := by cases d <;> rfl
@[simp] theorem shiftRight_st (d : ShrDest) (x y : Reg) (s : State) : (shiftRight d x y s).st = s.st := by cases d <;> rfl
@[simp] theorem shiftRight_run (d : ShrDest) (x y : Reg) (s : State) : (shiftRight d x y s).run = s.run := by cases d <;> rfl
@[simp] theorem shiftRight_rp (d : ShrDest) (x y : Reg) (s : State) : (shiftRight d x y s).rp = s.rp := by cases d <;> rfl
@[simp] theorem shiftRight_fault (d : ShrDest) (x y : Reg) (s : State) : (shiftRight d x y s).fault = s.fault := by cases d <;> rfl
@[simp] theorem shiftRight_finfo (d : ShrDest) (x y : Reg) (s : State) : (shiftRight d x y s).finfo = s.finfo := by cases d <;> rfl
@[simp] theorem shiftRight_px (d : ShrDest) (x y : Reg) (s : State) : (shiftRight d x y s).px = s.px := by cases d <;> rfl
@[simp] theorem shiftRight_mem (d : ShrDest) (x y : Reg) (s : State) : (shiftRight d x y s).mem = s.mem := by cases d <;> rfl
@[simp] theorem shiftRight_keys (d : ShrDest) (x y : Reg) (s : State) : (shiftRight d x y s).keys = s.keys := by cases d <;> rfl
@[simp] theorem shiftRight_beep (d : ShrDest) (x y : Reg) (s : State) : (shiftRight d x y s).beep = s.beep := by cases d <;> rfl
@[simp] theorem shiftRight_draws (d : ShrDest) (x y : Reg) (s : State) : (shiftRight d x y s).draws = s.draws := by cases d <;> rfl

/-! ## pop16 -/

@[simp] theorem pop16_v (s : State) : (pop16 s).2.v = s.v := rfl
@[simp] theorem pop16_pc (s : State) : (pop16 s).2.pc = s.pc := rfl
@[simp] theorem pop16_i (s : State) : (pop16 s).2.i = s.i := rfl
@[simp] theorem pop16_sp (s : State) : (pop16 s).2.sp = s.sp - 2 := rfl
@[simp] theorem pop16_dt (s : State) : (pop16 s).2.dt = s.dt := rfl
@[simp] theorem pop16_st (s : State) : (pop16 s).2.st = s.st := rfl
@[simp] theorem pop16_run (s : State) : (pop16 s).2.run = s.run := rfl
@[simp] theorem pop16_rp (s : State) : (pop16 s).2.rp = s.rp := rfl
@[simp] theorem pop16_fault (s : State) : (pop16 s).2.fault = s.fault := rfl
@[simp] theorem pop16_finfo (s : State) : (pop16 s).2.finfo = s.finfo := rfl
@[simp] theorem pop16_px (s : State) : (pop16 s).2.px = s.px := rfl
@[simp] theorem pop16_mem (s : State) : (pop16 s).2.mem = s.mem := rfl
@[simp] theorem pop16_keys (s : State) : (pop16 s).2.keys = s.keys := rfl
@[simp] theorem pop16_beep (s : State) : (pop16 s).2.beep = s.beep := rfl
@[simp] theorem pop16_draws (s : State) : (pop16 s).2.draws = s.draws := rfl

/-! ## skipIf -/

@[simp] theorem skipIf_v (c : Bool) (s : State) : (skipIf c s).v = s.v := by cases c <;> rfl
@[simp] theorem skipIf_pc (c : Bool) (s : State) : (skipIf c s).pc = if c then s.pc + 2 else s.pc := by cases c <;> rfl
@[simp] theorem skipIf_i (c : Bool) (s : State) : (skipIf c s).i = s.i := by cases c <;> rfl
@[simp] theorem skipIf_sp (c : Bool) (s : State) : (skipIf c s).sp = s.sp := by cases c <;> rfl
@[simp] theorem skipIf_dt (c : Bool) (s : State) : (skipIf c s).dt = s.dt := by cases c <;> rfl
@[simp] theorem skipIf_st (c : Bool) (s : State) : (skipIf c s).st = s.st := by cases c <;> rfl
@[simp] theorem skipIf_run (c : Bool) (s : State) : (skipIf c s).run = s.run := by cases c <;> rfl
@[simp] theorem skipIf_rp (c : Bool) (s : State) : (skipIf c s).rp = s.rp := by cases c <;> rfl
@[simp] theorem skipIf_fault (c : Bool) (s : State) : (skipIf c s).fault = s.fault := by cases c <;> rfl
@[simp] theorem skipIf_finfo (c : Bool) (s : State) : (skipIf c s).finfo = s.finfo := by cases c <;> rfl
@[simp] theorem skipIf_px (c : Bool) (s : State) : (skipIf c s).px = s.px := by cases c <;> rfl
@[simp] theorem skipIf_mem (c : Bool) (s : State) : (skipIf c s).mem = s.mem := by cases c <;> rfl
@[simp] theorem skipIf_keys (c : Bool) (s : State) : (skipIf c s).keys = s.keys := by cases c <;> rfl
@[simp] theorem skipIf_beep (c : Bool) (s : State) : (skipIf c s).beep = s.beep := by cases c <;> rfl
@[simp] theorem skipIf_draws (c : Bool) (s : State) : (skipIf c s).draws = s.draws := by cases c <;> rfl

end Sys2Proof.Machine
end

