-- ==== Sys2Proof/Laws/Registers.lean ====
section
/-! SUPPORT. What the register, stack, check and fault operations do, said once (spec/10_state.md R20 to R35,
spec/60_exceptions.md R201 to R206). -/

namespace Sys2Proof.Machine

/-- A read after a register write. -/
theorem readV_writeV (r q : Reg) (b : Byte) (s : State) : readV (writeV r b s) q = if q = r then b else readV s q := by
  unfold readV writeV
  by_cases h : q = r
  · subst h
    simp
  · have : r.val ≠ q.val := fun e => h (Fin.ext e.symm)
    simp [h, this]

theorem readV_writeV_same (r : Reg) (b : Byte) (s : State) : readV (writeV r b s) r = b := by
  simp [readV_writeV]

theorem readV_writeV_other (r q : Reg) (b : Byte) (s : State) (h : q ≠ r) : readV (writeV r b s) q = readV s q := by
  simp [readV_writeV, h]

/-- Two states with the same registers read the same. -/
theorem readV_congr (s t : State) (h : s.v = t.v) (r : Reg) : readV s r = readV t r := by
  simp [readV, h]

theorem readV_writeFlag (f : Bool) (q : Reg) (s : State) :
    readV (writeFlag f s) q = if q = VF then flagByte f else readV s q :=
  readV_writeV VF q (flagByte f) s

theorem flagByte_toNat (f : Bool) : (flagByte f).toNat = if f then 1 else 0 := by
  cases f <;> rfl

/-- The 16-bit word of two bytes, as a number (R53). -/
theorem bigEndian_toNat (hi lo : Byte) : (bigEndian hi lo).toNat = hi.toNat * 256 + lo.toNat := by
  unfold bigEndian
  have := hi.isLt
  have := lo.isLt
  rw [BitVec.toNat_ofNat, Nat.mod_eq_of_lt (by omega)]

theorem highByte_toNat (w : Word) : (highByte w).toNat = w.toNat / 256 := by
  unfold highByte
  have := w.isLt
  rw [BitVec.extractLsb'_toNat, Nat.shiftRight_eq_div_pow]
  omega

theorem lowByte_toNat (w : Word) : (lowByte w).toNat = w.toNat % 256 := by
  unfold lowByte
  rw [BitVec.extractLsb'_toNat, Nat.shiftRight_eq_div_pow]
  omega

/-- A word is its two bytes. -/
theorem bigEndian_highByte_lowByte (w : Word) : bigEndian (highByte w) (lowByte w) = w := by
  apply BitVec.eq_of_toNat_eq
  rw [bigEndian_toNat, highByte_toNat, lowByte_toNat]
  omega

/-- A check answers `MEM_RANGE` or nothing (R201). -/
theorem rangeCheck_cases (a len : Nat) : rangeCheck a len = none ∨ rangeCheck a len = some .memRange := by
  unfold rangeCheck
  split <;> simp

/-- When a transfer's check passes (R177). -/
theorem rangeCheck_eq_none (a len : Nat) : rangeCheck a len = none ↔ len = 0 ∨ a + len ≤ 4096 := by
  unfold rangeCheck
  simp only [Config.memSize]
  split <;> simp <;> omega

theorem pushCheck_eq_none (s : State) : pushCheck s = none ↔ s.sp.toNat + 2 ≤ 0x200 := by
  unfold pushCheck
  simp only [Config.stackLimit]
  split <;> simp <;> omega

theorem popCheck_eq_none (s : State) : popCheck s = none ↔ 0x54 ≤ s.sp.toNat ∧ s.sp.toNat ≤ 4096 := by
  unfold popCheck
  simp only [Config.stackBase]
  split
  · simp
    omega
  · rw [rangeCheck_eq_none]
    omega

theorem gridCheck_eq_none (x0 y0 n : Nat) : gridCheck x0 y0 n = none ↔ n = 0 ∨ (x0 ≤ 56 ∧ y0 + n ≤ 32) := by
  unfold gridCheck
  simp only [Config.displayW, Config.displayH]
  split <;> simp <;> omega

/-- A BoundsError never records `NONE` (R201). -/
theorem boundsFault_ne_none (i : Instr) (s : State) : boundsFault i s ≠ some .none := by
  cases i <;> simp [boundsFault, popCheck, pushCheck, spriteCheck, gridCheck, rangeCheck]
  split_ifs <;> simp

/-- A guarded instruction either takes its fault or has its effect. -/
theorem guarded_cases (i : Instr) (s t : State) :
    (∃ c, boundsFault i s = some c ∧ guarded i s t = .next (takeFault c (encode i) s)) ∨
      (boundsFault i s = none ∧ guarded i s t = .next t) := by
  unfold guarded
  cases h : boundsFault i s with
  | none => exact Or.inr ⟨rfl, rfl⟩
  | some c => exact Or.inl ⟨c, rfl, rfl⟩

theorem guarded_of_none (i : Instr) (s t : State) (h : boundsFault i s = none) : guarded i s t = .next t := by
  simp [guarded, h]

theorem guarded_of_some (i : Instr) (s t : State) (c : FaultCode) (h : boundsFault i s = some c) :
    guarded i s t = .next (takeFault c (encode i) s) := by
  simp [guarded, h]

end Sys2Proof.Machine
end

