-- ==== Sys2Proof/Laws/Transfers.lean ====
section
/-! SUPPORT. What the block transfers do (spec/44_index_memory.md R174 to R176). -/

namespace Sys2Proof.Machine

/-- A block load changes the general registers alone. -/
theorem loadUpTo_frame (k : Nat) (s : State) : loadUpTo k s = { s with v := (loadUpTo k s).v } := by
  induction k with
  | zero => rfl
  | succ k ih =>
    rw [loadUpTo, ih]
    rfl

/-- A block load of `k` registers: the first `k` come from memory, the others stay. -/
theorem loadUpTo_readV (k : Nat) (s : State) (hk : k ≤ 16) (r : Reg) :
    readV (loadUpTo k s) r = if r.val < k then s.mem.read (effAddr s r.val) else readV s r := by
  induction k with
  | zero => simp [loadUpTo]
  | succ k ih =>
    have hmem : (loadUpTo k s).mem = s.mem := by rw [loadUpTo_frame]
    have hi : (loadUpTo k s).i = s.i := by rw [loadUpTo_frame]
    rw [loadUpTo, readV_writeV, ih (by omega)]
    by_cases h : r.val = k
    · have : r = Fin.ofNat 16 k := by
        apply Fin.ext
        simp
        omega
      rw [if_pos this, if_pos (by omega)]
      simp only [memRead, hmem, effAddr, hi, h]
    · have : r ≠ Fin.ofNat 16 k := by
        intro e
        apply h
        rw [e]
        simp
        omega
      have hiff : (r.val < k + 1) = (r.val < k) := by
        apply propext
        omega
      simp only [this, if_false, hiff]

/-- A block store changes memory alone. -/
theorem storeUpTo_frame (k : Nat) (s : State) : storeUpTo k s = { s with mem := (storeUpTo k s).mem } := by
  induction k with
  | zero => rfl
  | succ k ih =>
    rw [storeUpTo, ih]
    rfl

/-- A block store keeps the canonical form. -/
theorem storeUpTo_wf (k : Nat) (s : State) (h : s.mem.wf = true) : (storeUpTo k s).mem.wf = true := by
  induction k with
  | zero => exact h
  | succ k ih => exact Memory.wf_write _ _ _ ih

/-- A block store of `k` registers leaves every address outside its `k` bytes alone. -/
theorem storeUpTo_read_other (k : Nat) (s : State) (a : Nat) (h : a < s.i.toNat ∨ s.i.toNat + k ≤ a) :
    (storeUpTo k s).mem.read a = s.mem.read a := by
  induction k with
  | zero => rfl
  | succ k ih =>
    have hi : (storeUpTo k s).i = s.i := by rw [storeUpTo_frame]
    rw [storeUpTo, memWrite_mem, Memory.read_write_other, ih (by omega)]
    simp only [effAddr, hi]
    omega

/-- A block store of `k` registers puts each at its own address. -/
theorem storeUpTo_read (k : Nat) (s : State) (hm : s.mem.wf = true) (hk : k ≤ 16) (ha : s.i.toNat + k ≤ 4096) (r : Reg)
    (hr : r.val < k) : (storeUpTo k s).mem.read (effAddr s r.val) = readV s r := by
  induction k with
  | zero => omega
  | succ k ih =>
    have hi : (storeUpTo k s).i = s.i := by rw [storeUpTo_frame]
    have hv : (storeUpTo k s).v = s.v := by rw [storeUpTo_frame]
    rw [storeUpTo, memWrite_mem]
    by_cases h : r.val = k
    · have hreg : Fin.ofNat 16 k = r := by
        apply Fin.ext
        simp
        omega
      have haddr : effAddr (storeUpTo k s) k = effAddr s r.val := by
        simp only [effAddr, hi, h]
      rw [haddr, hreg, Memory.read_write_same _ _ _ (storeUpTo_wf k s hm) (by simp only [effAddr]; omega)]
      exact readV_congr _ _ hv r
    · rw [Memory.read_write_other, ih (by omega) (by omega) (by omega)]
      simp only [effAddr, hi]
      omega

end Sys2Proof.Machine
end

