-- ==== Sys2Proof/Laws/Stores.lean ====
section
/-! SUPPORT. What every address reads after a store, and what the next fetch reads (spec/20_memory.md R53, R57, R64). -/

namespace Sys2Proof.Machine

/-- After a store of several bytes every address reads as `storedOver` says. -/
theorem Memory.read_writeBytes (bytes : List Byte) (m : Memory) (a c : Nat) (hm : m.wf = true)
    (ha : a + bytes.length ≤ 4096) : (m.writeBytes a bytes).read c = storedOver m a bytes c := by
  unfold storedOver
  split
  · rename_i h
    have hk : c - a < bytes.length := by omega
    have hr := Memory.read_writeBytes_inside bytes m a (c - a) hm hk ha
    rw [Nat.add_sub_of_le h.1] at hr
    rw [hr, List.getD_eq_getElem _ _ hk]
  · exact Memory.read_writeBytes_other bytes m a c (by omega)

/-- The bytes that the first `k` registers store (R175). -/
theorem storeUpTo_read_all (k : Nat) (s : State) (hm : s.mem.wf = true) (hk : k ≤ 16) (ha : s.i.toNat + k ≤ 4096) (c : Nat) :
    (storeUpTo k s).mem.read c =
      storedOver s.mem (effAddr s 0) ((List.range k).map fun j => readV s (Fin.ofNat 16 j)) c := by
  unfold storedOver
  simp only [effAddr, Nat.add_zero, List.length_map, List.length_range]
  split
  · rename_i h
    have hj : c - s.i.toNat < k := by omega
    have hv : (Fin.ofNat 16 (c - s.i.toNat)).val = c - s.i.toNat := Nat.mod_eq_of_lt (by omega)
    have hr := storeUpTo_read k s hm hk ha (Fin.ofNat 16 (c - s.i.toNat)) (by omega)
    rw [hv, effAddr, Nat.add_sub_of_le h.1] at hr
    rw [hr, List.getD_eq_getElem _ _ (by simpa using hj)]
    simp
  · exact storeUpTo_read_other k s c (by omega)

/-- A push is a store of the two bytes, low byte first (R54). -/
theorem push16_mem_eq_writeBytes (w : Word) (s : State) : (push16 w s).mem = s.mem.writeBytes s.sp.toNat [lowByte w, highByte w] := rfl

/-- A fetch that does not fault reads the two bytes at `PC`, high byte first (R53). -/
theorem fetchOpcode_toNat (s : State) (h : s.pc.toNat ≤ 4094) :
    ∃ w, fetchOpcode s = some w ∧ w.toNat = (s.mem.read s.pc.toNat).toNat * 256 + (s.mem.read (s.pc.toNat + 1)).toNat := by
  refine ⟨bigEndian (s.mem.read s.pc.toNat) (s.mem.read (s.pc.toNat + 1)), ?_, bigEndian_toNat _ _⟩
  unfold fetchOpcode
  rw [if_neg (by simp only [Config.memSize]; omega)]
  rfl

/-- The tick changes nothing that a fetch reads (R226). -/
@[simp] theorem fetchOpcode_tick (s : State) : fetchOpcode (tick s) = fetchOpcode s := rfl

end Sys2Proof.Machine
end

