-- ==== Sys2Proof/Tests/Slice0.lean ====
section
/-! SUPPORT. Tests of the model: ill-formed terms that the check refuses, words decoded as the spec writes them, one cycle
per vector of spec/95_test_vectors.md (T<n>, S<n>; the expected values are the spec's), and a state that meets the hypotheses
of each statement that has some. -/

namespace Sys2Proof.Tests

open Sys2Proof Sys2Proof.Machine

/-! ## Helpers -/

/-- The state after one cycle, if the cycle answers one. -/
def after (s : State) : Option State :=
  match step s with
  | .next t => some t
  | .fault _ => none
  | .refused _ => none

/-- Bytes placed in memory. -/
def bytesAt (a : Nat) (bytes : List Byte) (s : State) : State := { s with mem := s.mem.writeBytes a bytes }

/-- A word placed at `a`, with `PC` there. -/
def wordAt (a : Nat) (w : Word) (s : State) : State :=
  { bytesAt a [highByte w, lowByte w] s with pc := BitVec.ofNat 16 a }

/-- The start state of the vectors: reset, with the opcode under test at 0x200. -/
def start (w : Word) : State := wordAt 0x200 w State.reset

/-- One register set. -/
def withV (r : Reg) (b : Byte) (s : State) : State := { s with v := s.v.set r.val b }

/-- The stack pointer set. -/
def withSp (a : Word) (s : State) : State := { s with sp := a }

/-- The index register set. -/
def withI (a : Word) (s : State) : State := { s with i := a }

/-- The timers set. -/
def withTimers (d t : Byte) (s : State) : State := { s with dt := d, st := t }

/-- Pixels lit, by column and row. -/
def lit (cells : List (Nat × Nat)) (s : State) : State :=
  { s with px := cells.foldl (fun d c => d.setPx c.1 c.2 true) s.px }

/-- `lit0` of spec/95_test_vectors.md 2.1. -/
def lit0 : List (Nat × Nat) := [(0, 0), (63, 0), (4, 3), (59, 10), (60, 10), (5, 27), (5, 28), (3, 31)]

/-- The pixels at some cells. -/
def pixels (t : State) (cells : List (Nat × Nat)) : List Bool := cells.map fun c => t.px.px c.1 c.2

/-- `RUN`, the number in `FAULT`, `FINFO` and `PC`. -/
def faultReport (t : State) : Bool × BitVec 3 × Word × Word := (t.run, t.fault.code, t.finfo, t.pc)

/-- `V1`, `V2` and `VF`, the columns of spec/95_test_vectors.md 2.4. -/
def columns (t : State) : Byte × Byte × Byte := (readV t 1, readV t 2, readV t VF)

/-- The start state of an ALU vector. -/
def alu (w : Word) (v1 v2 vf : Byte) : State := start w |> withV 1 v1 |> withV 2 v2 |> withV VF vf

/-! ## Ill-formed terms (R76, R79) -/

theorem test_wellFormed_refuses_sys_of_a_taken_word :
    (Instr.sys 0x0E0).wellFormed = false ∧ (Instr.sys 0x0C7).wellFormed = false ∧ (Instr.sys 0x0FF).wellFormed = false := by
  decide

theorem test_wellFormed_refuses_illegal8_of_a_legal_nibble :
    (Instr.illegal8 1 2 0x4).wellFormed = false ∧ (Instr.illegal8 1 2 0xE).wellFormed = false := by decide

theorem test_wellFormed_refuses_illegalE_of_a_legal_byte :
    (Instr.illegalE 1 0x9E).wellFormed = false ∧ (Instr.illegalE 1 0xA1).wellFormed = false := by decide

theorem test_wellFormed_refuses_illegalF_of_a_legal_byte :
    (Instr.illegalF 1 0x07).wellFormed = false ∧ (Instr.illegalF 1 0x65).wellFormed = false := by decide

theorem test_wellFormed_takes_the_neighbours :
    (Instr.sys 0x1E0).wellFormed = true ∧ (Instr.sys 0x0D0).wellFormed = true ∧ (Instr.illegal8 1 2 0xF).wellFormed = true ∧
      (Instr.illegalE 1 0x9F).wellFormed = true ∧ (Instr.illegalF 1 0x66).wellFormed = true := by decide

/-! ## Decoding: every constructor, from a word written out from the rows of R75 -/

theorem test_decode_system :
    decodeWord 0x00C4 = .scd 4 ∧ decodeWord 0x00E0 = .cls ∧ decodeWord 0x00EE = .ret ∧ decodeWord 0x00FB = .scr ∧
      decodeWord 0x00FC = .scl ∧ decodeWord 0x00FD = .exit ∧ decodeWord 0x00FE = .low ∧ decodeWord 0x00FF = .high ∧
      decodeWord 0x0123 = .sys 0x123 := by decide

theorem test_decode_control :
    decodeWord 0x1ABC = .jp 0xABC ∧ decodeWord 0x2300 = .call 0x300 ∧ decodeWord 0x3A05 = .seImm 0xA 0x05 ∧
      decodeWord 0x4A05 = .sneImm 0xA 0x05 ∧ decodeWord 0x5AB7 = .seReg 0xA 0xB 7 ∧ decodeWord 0x9127 = .sneReg 1 2 7 ∧
      decodeWord 0xBFFF = .jpV0 0xFFF := by decide

theorem test_decode_immediate :
    decodeWord 0x6A05 = .ldImm 0xA 0x05 ∧ decodeWord 0x7AFF = .addImm 0xA 0xFF ∧ decodeWord 0xC30F = .rnd 3 0x0F := by decide

theorem test_decode_alu :
    decodeWord 0x8120 = .ldReg 1 2 ∧ decodeWord 0x8121 = .orReg 1 2 ∧ decodeWord 0x8122 = .andReg 1 2 ∧
      decodeWord 0x8123 = .xorReg 1 2 ∧ decodeWord 0x8124 = .addReg 1 2 ∧ decodeWord 0x8125 = .subReg 1 2 ∧
      decodeWord 0x8126 = .shrReg 1 2 ∧ decodeWord 0x8127 = .subnReg 1 2 ∧ decodeWord 0x812E = .shlReg 1 2 ∧
      decodeWord 0x8AB8 = .illegal8 0xA 0xB 8 := by decide

theorem test_decode_index :
    decodeWord 0xA123 = .ldI 0x123 ∧ decodeWord 0xF21E = .addI 2 ∧ decodeWord 0xF229 = .ldF 2 ∧ decodeWord 0xF133 = .ldB 1 ∧
      decodeWord 0xF255 = .storeRegs 2 ∧ decodeWord 0xFF65 = .loadRegs 0xF ∧ decodeWord 0xF01F = .illegalF 0 0x1F := by
  decide

theorem test_decode_draw_keys_timers :
    decodeWord 0xD12F = .drw 1 2 0xF ∧ decodeWord 0xEA9E = .skp 0xA ∧ decodeWord 0xE1A1 = .sknp 1 ∧
      decodeWord 0xF207 = .ldVxDt 2 ∧ decodeWord 0xF10A = .ldVxK 1 ∧ decodeWord 0xF215 = .ldDtVx 2 ∧
      decodeWord 0xF218 = .ldStVx 2 ∧ decodeWord 0xEA9F = .illegalE 0xA 0x9F := by decide

theorem test_decodeBytes_reads_high_byte_first_and_leaves_the_rest :
    decodeBytes [0x6A, 0x05, 0x77] = .ok (.ldImm 0xA 0x05, [0x77]) := by rfl

theorem test_decodeBytes_rejects_less_than_a_word :
    decodeBytes [0x6A] = .error .truncated ∧ decodeBytes [] = .error .truncated := ⟨rfl, rfl⟩

theorem test_decodeTableWord_reads_the_word :
    decodeTableWord 16 0xD125 = some (.drw 1 2 5) ∧ decodeTableWord 16 0x00FD = some .exit := by decide

theorem test_withFetchWord_is_run_by_the_next_step :
    (after (State.reset.withFetchWord 16 0x6A05)).map (fun t => (readV t 0xA, t.pc)) = some (5, 0x202) := by decide

theorem test_withFetchWord_wakes_a_halted_core :
    (after ({ State.reset with run := false, pc := 0xFFF }.withFetchWord 16 0x6A05)).map (fun t => (readV t 0xA, t.pc)) =
      some (5, 0x202) := by decide

/-! ## System and display control (2.1) -/

theorem test_cls_T1 : (after (start 0x00E0 |> lit lit0)).map (fun t => (pixels t [(0, 0), (60, 10), (3, 31)], t.rp)) =
    some ([false, false, false], true) := by decide

theorem test_scd_T3 :
    (after (start 0x00C4 |> lit lit0)).map
      (fun t => (pixels t [(0, 4), (63, 4), (4, 7), (5, 31), (0, 0), (3, 31)], t.rp)) =
    some ([true, true, true, true, false, false], true) := by decide

theorem test_scd_of_zero_T4 :
    (after (start 0x00C0 |> lit lit0)).map (fun t => (pixels t [(0, 0), (63, 0), (4, 3), (3, 31), (0, 1)], t.rp)) =
      some ([true, true, true, true, false], true) := by decide

theorem test_scr_T6 :
    (after (start 0x00FB |> lit lit0)).map
      (fun t => (pixels t [(4, 0), (8, 3), (63, 10), (7, 31), (0, 0), (0, 10), (3, 0)], t.rp)) =
    some ([true, true, true, true, false, false, false], true) := by decide

theorem test_scl_T7 :
    (after (start 0x00FC |> lit lit0)).map
      (fun t => (pixels t [(59, 0), (0, 3), (55, 10), (56, 10), (1, 27), (63, 0), (63, 31)], t.rp)) =
    some ([true, true, true, true, true, false, false], true) := by decide

theorem test_exit_T8 :
    (after (start 0x00FD |> withTimers 5 1)).map (fun t => (faultReport t, t.dt, t.st, t.beep)) =
      some ((false, 0, 0, 0x202), 4, 0, true) := by decide

theorem test_low_T9 : (after (start 0x00FE |> lit lit0)) = some { (start 0x00FE |> lit lit0) with pc := 0x202 } := by decide

theorem test_high_T10 : (after (start 0x00FF)) = some { start 0x00FF with pc := 0x202 } := by decide

theorem test_sys_T11 : (after (start 0x01E0 |> lit lit0)) = some { (start 0x01E0 |> lit lit0) with pc := 0x202 } := by decide

theorem test_ret_T12 :
    (after (start 0x00EE |> withSp 0x54 |> bytesAt 0x52 [0x34, 0x02])).map (fun t => (t.pc, t.sp, t.mem.read 0x52)) =
      some (0x0234, 0x52, 0x34) := by decide

theorem test_ret_underflow_T14_T180 :
    (after (start 0x00EE |> withSp 0x53 |> bytesAt 0x51 [0x34, 0x02] |> withTimers 2 1)).map
      (fun t => (faultReport t, t.sp, t.dt, t.st, t.beep)) = some ((false, 4, 0x00EE, 0x202), 0x53, 2, 1, false) := by decide

/-! ## Jump, call, skip (2.2) -/

theorem test_jp_T20 : (after (start 0x1ABC)).map (·.pc) = some 0xABC := by decide

theorem test_call_T25 :
    (after (wordAt 0x3FE 0x2ABC State.reset)).map (fun t => (t.mem.read 0x52, t.mem.read 0x53, t.sp, t.pc)) =
      some (0x00, 0x04, 0x54, 0xABC) := by decide

theorem test_call_overflow_T27 :
    (after (start 0x2300 |> withSp 0x200)).map (fun t => (faultReport t, t.sp, t.mem.read 0x200)) =
      some ((false, 3, 0x2300, 0x202), 0x200, 0x23) := by decide

theorem test_se_imm_T29_T30 :
    (after (start 0x3A05 |> withV 10 5)).map (·.pc) = some 0x204 ∧
      (after (start 0x3A05 |> withV 10 6)).map (·.pc) = some 0x202 := by decide

theorem test_sne_imm_T31_T32 :
    (after (start 0x4A05 |> withV 10 5)).map (·.pc) = some 0x202 ∧
      (after (start 0x4A05 |> withV 10 6)).map (·.pc) = some 0x204 := by decide

theorem test_se_reg_T34_T35 :
    (after (alu 0x5120 7 8 0)).map (·.pc) = some 0x202 ∧ (after (alu 0x512F 7 7 0)).map (·.pc) = some 0x204 := by decide

theorem test_sne_reg_T37_T40 :
    (after (alu 0x9120 7 7 0)).map (·.pc) = some 0x202 ∧ (after (alu 0x9127 1 2 0)).map (·.pc) = some 0x204 := by decide

theorem test_jp_v0_T41_T43 :
    (after (start 0xB300 |> withV 0 4)).map (·.pc) = some 0x506 ∧
      (after (start 0xBFFF |> withV 0 255)).map (·.pc) = some 0x1300 := by decide

/-! ## Register and immediate (2.3) -/

theorem test_ld_imm_T51 : (after (start 0x6FFF)).map (readV · VF) = some 255 := by decide

theorem test_add_imm_T53 : (after (start 0x7AFF |> withV 10 1)).map (fun t => (readV t 10, readV t VF)) = some (0, 0) := by
  decide

theorem test_rnd_T56_T59 :
    readV (randomInto 0xA7 3 0x0F State.reset) 3 = 0x07 ∧ readV (randomInto 0x5A 15 0xF0 State.reset) VF = 0x50 := by decide

/-! ## ALU (2.4) -/

theorem test_ld_reg_T60 : (after (alu 0x8120 7 9 0)).map columns = some (9, 9, 0) := by decide

theorem test_or_T61 : (after (alu 0x8121 0xF0 0x0F 0)).map columns = some (0xFF, 0x0F, 0) := by decide

theorem test_and_T62 : (after (alu 0x8122 0xF3 0x3C 0)).map columns = some (0x30, 0x3C, 0) := by decide

theorem test_xor_T63 : (after (alu 0x8123 0xFF 0x0F 0)).map columns = some (0xF0, 0x0F, 0) := by decide

theorem test_add_T65_T66 :
    (after (alu 0x8124 200 100 0)).map columns = some (44, 100, 1) ∧
      (after (alu 0x8124 1 2 1)).map columns = some (3, 2, 0) := by decide

theorem test_add_with_vf_T80_T81 :
    (after (alu 0x8F24 0 100 200)).map columns = some (0, 100, 1) ∧
      (after (alu 0x81F4 200 0 100)).map columns = some (44, 0, 1) := by decide

theorem test_sub_T68_T69 :
    (after (alu 0x8125 5 5 0)).map columns = some (0, 5, 1) ∧
      (after (alu 0x8125 3 5 1)).map columns = some (254, 5, 0) := by decide

theorem test_sub_with_vf_T83_T84_T85 :
    (after (alu 0x8F25 0 3 5)).map columns = some (0, 3, 254) ∧ (after (alu 0x81F5 10 0 3)).map columns = some (9, 0, 1) ∧
      (after (alu 0x8FF5 0 0 9)).map columns = some (0, 0, 0) := by decide

theorem test_shr_T71_T86_T87 :
    (after (alu 0x8126 5 0xAA 0)).map columns = some (5, 2, 1) ∧ (after (alu 0x8F26 0 9 7)).map columns = some (0, 0, 1) ∧
      (after (alu 0x81F6 7 0 9)).map columns = some (7, 0, 3) := by decide

theorem test_shr_to_x_T74_T89 :
    columns (shiftRight .x 1 2 (alu 0x8126 5 0xAA 0)) = (2, 0xAA, 1) ∧
      columns (shiftRight .x 15 2 (alu 0x8F26 0 9 7)) = (0, 9, 0) := by decide

theorem test_subn_T76_T77 :
    (after (alu 0x8127 5 3 1)).map columns = some (254, 3, 0) ∧
      (after (alu 0x8127 5 5 0)).map columns = some (0, 5, 1) := by decide

theorem test_subn_with_vf_T90_T91 :
    (after (alu 0x8F27 0 5 3)).map columns = some (0, 5, 1) ∧
      (after (alu 0x81F7 3 0 5)).map columns = some (2, 0, 1) := by decide

theorem test_shl_T78_T93 :
    (after (alu 0x812E 0x81 0x33 0)).map columns = some (0x02, 0x33, 1) ∧
      (after (alu 0x8F2E 0 0 0x81)).map columns = some (0, 0, 2) := by decide

theorem test_illegal8_T95 :
    (after (alu 0x8129 1 2 0 |> withTimers 2 1)).map (fun t => (faultReport t, columns t, t.dt, t.st, t.beep)) =
      some ((false, 6, 0x8129, 0x202), (1, 2, 0), 1, 0, true) := by decide

/-! ## Index and memory (2.5) -/

theorem test_ld_i_T101 : (after (start 0xAFFF)).map (·.i) = some 0xFFF := by decide

theorem test_add_i_T102_T104 :
    (after (start 0xF21E |> withI 0x100 |> withV 2 0x20)).map (fun t => (t.i, readV t VF)) = some (0x120, 0) ∧
      (after (start 0xF21E |> withI 0xF80 |> withV 2 0xFF)).map (fun t => (t.i, readV t VF)) = some (0x07F, 0) := by decide

theorem test_add_i_other_moduli_T105_T106_T108 :
    (addToIndex 255 2 (State.reset |> withI 0x100 |> withV 2 0x20)).i = 0x21 ∧
      (addToIndex 255 2 (State.reset |> withI 0xFE |> withV 2 1)).i = 0 ∧
      (addToIndex 256 2 (State.reset |> withI 0xFE |> withV 2 1)).i = 0xFF := by decide

theorem test_ld_f_T112_T113 :
    (after (start 0xF229 |> withV 2 0x1A)).map (·.i) = some 0x82 ∧
      (after (start 0xF229 |> withV 2 0xFF)).map (·.i) = some 0x4FB := by decide

theorem test_ld_b_T115 :
    (after (start 0xF133 |> withV 1 7 |> withI 0x300 |> bytesAt 0x300 [9, 9, 9, 9])).map
      (fun t => [t.mem.read 0x300, t.mem.read 0x301, t.mem.read 0x302, t.mem.read 0x303]) = some [0, 0, 7, 9] := by decide

theorem test_ld_b_outside_T117 :
    (after (start 0xF133 |> withV 1 199 |> withI 0xFFE |> bytesAt 0xFFE [7, 7])).map
      (fun t => (faultReport t, t.mem.read 0xFFE, t.mem.read 0xFFF)) = some ((false, 2, 0xF133, 0x202), 7, 7) := by decide

theorem test_store_regs_T119 :
    (after (start 0xF255 |> withV 0 0x11 |> withV 1 0x22 |> withV 2 0x33 |> withV 3 0x44 |> withI 0x400 |>
        bytesAt 0x403 [0xEE])).map
      (fun t => (t.mem.read 0x400, t.mem.read 0x401, t.mem.read 0x402, t.mem.read 0x403, t.i)) =
    some (0x11, 0x22, 0x33, 0xEE, 0x400) := by decide

theorem test_store_regs_outside_T121 :
    (after (start 0xF155 |> withV 0 0x11 |> withV 1 0x22 |> withI 0xFFF)).map (fun t => (faultReport t, t.mem.read 0xFFF)) =
      some ((false, 2, 0xF155, 0x202), 0) := by decide

theorem test_load_regs_T124 :
    (after (start 0xF265 |> bytesAt 0x400 [1, 2, 3, 4] |> withV 3 0x99 |> withI 0x400)).map
      (fun t => (readV t 0, readV t 1, readV t 2, readV t 3, t.i)) = some (1, 2, 3, 0x99, 0x400) := by decide

theorem test_load_regs_outside_T127 :
    (after (start 0xF165 |> bytesAt 0xFFF [5] |> withV 0 7 |> withV 1 8 |> withI 0xFFF)).map
      (fun t => (faultReport t, readV t 0, readV t 1)) = some ((false, 2, 0xF165, 0x202), 7, 8) := by decide

/-! ## Draw (2.6) -/

theorem test_drw_T140 :
    (after (start 0xD121 |> withV 1 3 |> withV 2 5 |> withV VF 7 |> withI 0x300 |> bytesAt 0x300 [0xA5])).map
      (fun t => (pixels t [(3, 5), (4, 5), (5, 5), (8, 5), (9, 5), (10, 5)], readV t VF, t.rp)) =
    some ([true, false, true, true, false, true], 0, true) := by decide

theorem test_drw_with_vf_T154 :
    (after (start 0xDFF1 |> withV VF 2 |> withI 0x300 |> bytesAt 0x300 [0x80] |> lit [(2, 2)])).map
      (fun t => (pixels t [(2, 2)], readV t VF)) = some ([false], 1) := by decide

/-! ## Keys and timers (2.7) -/

theorem test_skp_T160 :
    after (start 0xE19E |> withV 1 3 |> driveKeys (Vector.replicate 16 true)) =
      some { (start 0xE19E |> withV 1 3 |> driveKeys (Vector.replicate 16 true)) with pc := 0x202 } := by decide

theorem test_sknp_T161 : after (start 0xE1A1 |> withV 1 3) = some { (start 0xE1A1 |> withV 1 3) with pc := 0x202 } := by decide

theorem test_ld_vx_k_T162 :
    (after (start 0xF10A |> withV 1 0x77 |> withTimers 3 0)).map (fun t => (readV t 1, t.pc, t.dt)) =
      some (0x77, 0x202, 2) := by decide

theorem test_ld_vx_dt_T163 :
    (after (start 0xF207 |> withTimers 0x2C 0)).map (fun t => (readV t 2, t.dt)) = some (0x2C, 0x2B) := by decide

theorem test_ld_dt_vx_T165_T166 :
    (after (start 0xF215)).map (·.dt) = some 0 ∧ (after (start 0xF215 |> withV 2 255)).map (·.dt) = some 254 := by decide

theorem test_ld_st_vx_T168_T169 :
    (after (start 0xF218 |> withV 2 1)).map (fun t => (t.st, t.beep)) = some (0, true) ∧
      (after (start 0xF218 |> withV 2 2)).map (fun t => (t.st, t.beep)) = some (1, false) := by decide

theorem test_illegalE_T172 :
    (after (start 0xE09F |> withTimers 2 1)).map (fun t => (faultReport t, t.dt, t.st, t.beep)) =
      some ((false, 6, 0xE09F, 0x202), 1, 0, true) := by decide

theorem test_illegalF_T172 :
    (after (start 0xF1FF |> withTimers 2 1)).map (fun t => (faultReport t, t.dt, t.st, t.beep)) =
      some ((false, 6, 0xF1FF, 0x202), 1, 0, true) := by decide

/-! ## Faults, halting, loading (2.8) -/

theorem test_fetch_outside_memory_T181 :
    (after { State.reset with pc := 0xFFF, dt := 2, st := 1 }).map (fun t => (faultReport t, t.dt, t.st, t.beep)) =
      some ((false, 1, 0x0FFF, 0xFFF), 2, 1, false) := by decide

theorem test_halted_cycle_T182 :
    after { start 0x6A05 with run := false, beep := true, dt := 4 } = some { start 0x6A05 with run := false, dt := 4 } := by
  decide

theorem test_load_T184_T185 :
    load 0xFFF [1, 2] State.reset = none ∧
      (load 0xFFE [1, 2] State.reset).map (fun t => (t.mem.read 0xFFE, t.mem.read 0xFFF)) = some (1, 2) := by decide

/-! ## Witnesses: states and operands that meet the hypotheses of the statements, at the edges of each clause -/

theorem witness_DecodeOfEncodeIsTheInstruction :
    (Instr.drw 15 0 15).wellFormed = true ∧ (Instr.sys 0xFFF).wellFormed = true ∧ (Instr.illegalF 0 0xFF).wellFormed = true := by
  decide

theorem witness_StepRunsTheDecodedInstruction :
    ∃ (s t : State) (rest : List Byte), s.run = true ∧ s.pc.toNat = 4094 ∧
      decodeBytes [s.mem.read s.pc.toNat, s.mem.read (s.pc.toNat + 1)] = .ok (.ldImm 10 5, rest) ∧
      exec (.ldImm 10 5) { s with pc := s.pc + 2, beep := false } = .next t :=
  ⟨wordAt 4094 0x6A05 State.reset, _, [], rfl, rfl, rfl, rfl⟩

theorem witness_HaltedCycleChangesOnlyBeep : ({ State.reset with run := false } : State).run = false := rfl

theorem witness_FetchOutsideMemoryFaults :
    ({ State.reset with pc := 4095 } : State).run = true ∧ ({ State.reset with pc := 4095 } : State).pc.toNat > 4094 := by
  decide

theorem witness_TickEndsACycleWithoutBoundsError :
    ∃ t, (start 0xF218).run = true ∧ fetchOpcode (start 0xF218) = some 0xF218 ∧
      exec (decodeWord 0xF218) { start 0xF218 with pc := (start 0xF218).pc + 2, beep := false } = .next t ∧
      boundsFault (decodeWord 0xF218) { start 0xF218 with pc := (start 0xF218).pc + 2, beep := false } = none :=
  ⟨_, rfl, rfl, rfl, rfl⟩

theorem witness_BoundsErrorSkipsTheTickAndEveryWrite :
    (start 0x00EE).run = true ∧ fetchOpcode (start 0x00EE) = some 0x00EE ∧
      boundsFault (decodeWord 0x00EE) { start 0x00EE with pc := (start 0x00EE).pc + 2, beep := false } =
        some .stackUnderflow := by decide

theorem witness_IllegalWordHaltsAfterTheTick :
    (start 0x8129).run = true ∧ fetchOpcode (start 0x8129) = some 0x8129 ∧ (decodeWord 0x8129).illegal = true := by decide

theorem witness_TransferOutsideMemoryFaults :
    (withI 4094 State.reset).i.toNat + 2 > 4095 ∧ (withI 4095 State.reset).i.toNat + (1 : Reg).val > 4095 ∧
      (withI 4081 State.reset).i.toNat + (15 : Reg).val > 4095 := by decide

theorem witness_DrawChecksMemoryBeforeDisplay :
    0 < (2 : Nibble).toNat ∧ (withI 4095 State.reset).i.toNat + (2 : Nibble).toNat - 1 > 4095 ∧
      (withI 4094 State.reset).i.toNat + (2 : Nibble).toNat - 1 ≤ 4095 ∧
      (readV (withV 1 57 State.reset) 1).toNat + 7 > 63 ∧
      (readV (withV 2 31 State.reset) 2).toNat + (2 : Nibble).toNat - 1 > 31 := by decide

theorem witness_OnlyTheListedInstructionsFault :
    (Instr.cls).illegal = false ∧ boundsFault .cls State.reset = none ∧ Instr.cls ≠ .exit ∧
      boundsFault .ret State.reset ≠ none := by decide

theorem witness_LoadImmediateWritesTheByte : (0 : Reg) ≠ 15 := by decide

theorem witness_AddImmediateAddsModulo256 : (0 : Reg) ≠ 15 := by decide

theorem witness_RandomByteIsMasked : (0 : Reg) ≠ 15 ∧ (0x0F : Byte).getLsbD 4 = false := by decide

theorem witness_MoveAndLogicActBitwise : (0 : Reg) ≠ 15 := by decide

theorem witness_AddWritesSumThenCarry : (1 : Reg) ≠ VF ∧ (0 : Reg) ≠ 1 ∧ (0 : Reg) ≠ VF := by decide

theorem witness_SubtractWritesFlagThenDifference :
    (14 : Reg) ≠ VF ∧ (0 : Reg) ≠ VF ∧ (15 : Reg) = VF ∧ (1 : Reg) ≠ 14 ∧ (1 : Reg) ≠ VF := by decide

theorem witness_SubtractReversedWritesDifferenceThenFlag : (14 : Reg) ≠ VF ∧ (0 : Reg) ≠ 14 ∧ (0 : Reg) ≠ VF := by decide

theorem witness_ShiftRightWritesFlagThenHalf : (14 : Reg) ≠ VF ∧ (15 : Reg) = VF ∧ (0 : Reg) ≠ 14 := by decide

theorem witness_ShiftLeftWritesFlagThenDouble : (14 : Reg) ≠ VF ∧ (15 : Reg) = VF ∧ (0 : Reg) ≠ 14 := by decide

theorem witness_CallPushesTheReturnAddress :
    State.reset.mem.wf = true ∧ (withSp 0x1FE State.reset).sp.toNat + 2 ≤ 0x200 ∧
      (withSp 0x1FF State.reset).sp.toNat + 2 > 0x200 := by decide

theorem witness_ReturnPopsTheReturnAddress :
    0x52 + 2 ≤ (withSp 0x54 State.reset).sp.toNat ∧ (withSp 4096 State.reset).sp.toNat ≤ 4096 ∧
      (withSp 0x53 State.reset).sp.toNat < 0x52 + 2 ∧ 4096 < (withSp 4097 State.reset).sp.toNat := by decide

theorem witness_CallThenReturnRestores :
    State.reset.mem.wf = true ∧ 0x52 ≤ State.reset.sp.toNat ∧ State.reset.sp.toNat + 2 ≤ 0x200 ∧
      (withSp 0x1FE State.reset).sp.toNat + 2 ≤ 0x200 := by decide

theorem witness_IndexArithmetic : 0 < 255 ∧ 255 ≤ 65536 := by decide

theorem witness_DecimalDigitsAreStored :
    State.reset.mem.wf = true ∧ (withI 0xFFD State.reset).i.toNat + 2 ≤ 4095 := by decide

theorem witness_RegistersAreStoredFromI :
    State.reset.mem.wf = true ∧ (withI 0xFF0 State.reset).i.toNat + (15 : Reg).val ≤ 4095 ∧
      (withI 0xFFF State.reset).i.toNat + (0 : Reg).val ≤ 4095 := by decide

theorem witness_RegistersAreLoadedFromI :
    (withI 0xFF0 State.reset).i.toNat + (15 : Reg).val ≤ 4095 ∧ (withI 0xFFF State.reset).i.toNat + (0 : Reg).val ≤ 4095 := by
  decide

theorem witness_DrawFlipsThePixelsUnderSetBits :
    (0 : Nibble).toNat = 0 ∧ (withI 0xFFE State.reset).i.toNat + (2 : Nibble).toNat - 1 ≤ 4095 ∧
      (readV (withV 1 56 State.reset) 1).toNat + 7 ≤ 63 ∧
      (readV (withV 2 30 State.reset) 2).toNat + (2 : Nibble).toNat - 1 ≤ 31 := by decide

theorem witness_DrawTwiceRestoresThePicture :
    (1 : Reg) ≠ VF ∧ (2 : Reg) ≠ VF ∧ (withI 0xFFE State.reset).i.toNat + (2 : Nibble).toNat - 1 ≤ 4095 ∧
      (readV (withV 1 56 State.reset) 1).toNat + 7 ≤ 63 ∧
      (readV (withV 2 30 State.reset) 2).toNat + (2 : Nibble).toNat - 1 ≤ 31 := by decide

theorem witness_ClearAndHorizontalScrolls : 63 < 64 ∧ 31 < 32 := by decide

theorem witness_ScrollDownMovesRows : 63 < 64 ∧ 31 < 32 := by decide

theorem witness_ScrollFunctions : 63 < 64 ∧ 31 < 32 ∧ 32 ≤ 32 ∧ 64 ≤ 64 := by decide

theorem witness_ExitHaltsAfterTheTick : (start 0x00FD).run = true ∧ fetchOpcode (start 0x00FD) = some 0x00FD := by decide

theorem witness_TimerRegistersMoveWhole : (0 : Reg) ≠ 15 := by decide

theorem witness_DelaySetReadsBackOneLess :
    ∃ s t, s.run = true ∧ fetchOpcode s = some (encode (.ldDtVx 2)) ∧ step s = .next t ∧
      fetchOpcode t = some (encode (.ldVxDt 3)) :=
  ⟨bytesAt 0x202 [0xF3, 0x07] (start 0xF215), _, rfl, rfl, rfl, rfl⟩

theorem witness_RegistersWrittenOnlyAsTheTableSays :
    (Instr.drw 1 2 3).writesV 1 = false ∧ (Instr.loadRegs 1).writesV 2 = false ∧
      boundsFault (.loadRegs 1) (withI 4095 State.reset) ≠ none := by decide

theorem witness_MemoryWrittenOnlyWhereStored :
    (Instr.storeRegs 1).storesAt (withI 0x300 State.reset) 0x302 = false ∧
      (Instr.call 0x300).storesAt State.reset 0x54 = false ∧ boundsFault (.ldB 1) (withI 4094 State.reset) ≠ none := by decide

theorem witness_DisplayWrittenOnlyByDrawingInstructions :
    (Instr.ret).paints = false ∧ boundsFault (.drw 1 2 2) (withI 4095 State.reset) ≠ none ∧
      (Instr.scr).paints = true ∧ boundsFault .scr State.reset = none := by decide

theorem witness_ProgramCounterWrittenOnlyByTransfers :
    (Instr.cls).transfers = false ∧ boundsFault .ret State.reset ≠ none := by decide

theorem witness_StepKeepsTheInvariant : ∃ s t, Inv s ∧ step s = .next t :=
  ⟨start 0x2300, _, ⟨by decide, by decide, by decide, by decide, by decide, by decide, by decide⟩, rfl⟩

theorem witness_ReachableStatesMeetTheInvariant : ∃ s, Reachable s ∧ s.pc = 0x202 :=
  ⟨_, .cycled State.reset _ (.started _ .reset) rfl, rfl⟩

theorem witness_BootPlacesFontAndProgram :
    (List.replicate 3584 (0 : Byte)).length ≤ 3584 ∧ (List.replicate 3585 (0 : Byte)).length > 3584 :=
  ⟨Nat.le_of_eq List.length_replicate, Nat.lt_of_lt_of_eq (Nat.lt_succ_self 3584) List.length_replicate.symm⟩

theorem witness_KeysAndRepaintAffectNothingElse : ∃ s t, step s = .next t ∧ t.rp = true := ⟨start 0x00E0, _, rfl, rfl⟩

theorem witness_OnlyExitEndsARunWell : ∃ s t, Inv s ∧ s.run = true ∧ step s = .next t ∧ GoodEnd t :=
  ⟨start 0x00FD, _, ⟨by decide, by decide, by decide, by decide, by decide, by decide, by decide⟩, rfl, rfl, rfl,
    fun h => h rfl⟩

theorem witness_FaultIsPermanent : (raiseDecode (.illegal8 1 2 9) State.reset).run = false := rfl

theorem witness_StoreIsSeenByTheNextFetch :
    State.reset.mem.wf = true ∧ (withI 0xFFD State.reset).i.toNat + 2 ≤ 4095 ∧ State.reset.pc.toNat ≤ 4094 ∧
      (withI 0xFFF State.reset).i.toNat + (0 : Reg).val ≤ 4095 ∧ (withI 0xFF0 State.reset).i.toNat + (15 : Reg).val ≤ 4095 ∧
      ({ State.reset with pc := 4094 } : State).pc.toNat ≤ 4094 ∧ (withSp 0x1FE State.reset).sp.toNat + 2 ≤ 0x200 ∧
      (4094 : Addr12).toNat ≤ 4094 := by decide

theorem test_opcodeOver_mixes_stored_and_old_bytes :
    opcodeOver [(0x300, 0x6A), (0x301, 0x05)] 0x301 [0x07] 0x300 = 0x6A07 ∧
      opcodeOver [(0x300, 0x6A), (0x301, 0x05)] 0x2FF [0x07, 0x08] 0x300 = 0x0805 := by decide

end Sys2Proof.Tests
end

section
/-! SUPPORT. Proofs of the statements on the subtraction, the shifts, the conditional skips and the index arithmetic
(spec/43_alu.md R156, R157, R159, spec/41_jump_call_skip.md R123 to R128, spec/44_index_memory.md R172, R173). -/

namespace Sys2Proof.Machine

/-! ## The flag bytes as numbers -/

theorem noBorrowFlag_toNat (a b : Byte) :
    (flagByte (noBorrowFlag a b)).toNat = if a.toNat ≥ b.toNat then 1 else 0 := by
  simp [flagByte_toNat, noBorrowFlag]

theorem shrFlag_toNat (a : Byte) : (flagByte (shrFlag a)).toNat = a.toNat % 2 := by
  rw [flagByte_toNat, shrFlag, BitVec.getLsbD, Nat.testBit_zero]
  split <;> simp_all

theorem shlFlag_toNat (a : Byte) : (flagByte (shlFlag a)).toNat = a.toNat / 128 := by
  have := a.isLt
  rw [flagByte_toNat, shlFlag, BitVec.getLsbD, Nat.testBit_eq_decide_div_mod_eq]
  split <;> simp_all <;> omega

/-! ## The two shifts as numbers -/

theorem ushiftRight_one_toNat (a : Byte) : (a >>> 1).toNat = a.toNat / 2 := by
  rw [BitVec.toNat_ushiftRight, Nat.shiftRight_eq_div_pow, Nat.pow_one]

theorem shiftLeft_one_toNat (a : Byte) : (a <<< 1).toNat = 2 * a.toNat % 256 := by
  rw [BitVec.toNat_shiftLeft, Nat.shiftLeft_eq, Nat.pow_one, Nat.mul_comm]

/-- A flag is one bit, so the right shift drops it. -/
theorem flagByte_ushiftRight_one (f : Bool) : flagByte f >>> 1 = 0 := by
  cases f <;> rfl

theorem flagByte_shiftLeft_one_toNat (f : Bool) : (flagByte f <<< 1).toNat = 2 * (flagByte f).toNat := by
  cases f <;> rfl

/-! ## A register after the flag write and the write that follows it (R13, decision D1) -/

/-- A read after the flag write and a register write: the later write wins. -/
theorem readV_writeV_writeFlag (r q : Reg) (b : Byte) (f : Bool) (s : State) :
    readV (writeV r b (writeFlag f s)) q = if q = r then b else if q = VF then flagByte f else readV s q := by
  rw [readV_writeV, readV_writeFlag]

/-- Every register after the two statements of R156. -/
theorem readV_subtractInto_writeFlag (x y q : Reg) (f : Bool) (s : State) :
    readV (subtractInto x y (writeFlag f s)) q =
      if q = x then (if x = VF then flagByte f else readV s x) - (if y = VF then flagByte f else readV s y)
      else if q = VF then flagByte f else readV s q := by
  rw [subtractInto, readV_writeV_writeFlag, readV_writeFlag, readV_writeFlag]

/-- Every register after R157 with `SHR_DEST` = Y. -/
theorem readV_shiftRight_y (x y q : Reg) (s : State) :
    readV (shiftRight .y x y s) q =
      if q = y then (if x = VF then (0 : Byte) else readV s x >>> 1)
      else if q = VF then flagByte (shrFlag (readV s x)) else readV s q := by
  simp only [shiftRight, shiftRightInto]
  rw [readV_writeV_writeFlag, readV_writeFlag]
  by_cases hx : x = VF
  · rw [if_pos hx, if_pos hx, flagByte_ushiftRight_one]
  · rw [if_neg hx, if_neg hx]

/-- With `SHR_DEST` = X the shift ends as one with `SHR_DEST` = Y whose `y` is `x`. -/
theorem shiftRight_x_eq (x y : Reg) (s : State) : shiftRight .x x y s = shiftRight .y x x s := rfl

/-- The right shift writes the general registers alone. -/
theorem shiftRight_frame (d : ShrDest) (x y : Reg) (s : State) :
    shiftRight d x y s = { s with v := (shiftRight d x y s).v } := by
  cases d <;> rfl

/-- Every register after the two statements of R159. -/
theorem readV_shiftLeftInto_writeFlag (x q : Reg) (f : Bool) (s : State) :
    readV (shiftLeftInto x (writeFlag f s)) q =
      if q = x then (if x = VF then flagByte f else readV s x) <<< 1
      else if q = VF then flagByte f else readV s q := by
  rw [shiftLeftInto, readV_writeV_writeFlag, readV_writeFlag]

/-! ## Conditional skips and the address register -/

/-- A skip writes `PC` alone. -/
theorem skipIf_frame (c : Bool) (s : State) : skipIf c s = { s with pc := (skipIf c s).pc } := by
  cases c <;> rfl

theorem skipIf_pc_toNat (c : Bool) (s : State) :
    (skipIf c s).pc.toNat = if c then (s.pc.toNat + 2) % 65536 else s.pc.toNat := by
  cases c <;> rfl

/-- A skip on equality (R123, R125). -/
theorem skipIf_beq_pc_toNat (a b : Byte) (s : State) :
    (skipIf (a == b) s).pc.toNat = if a.toNat = b.toNat then (s.pc.toNat + 2) % 65536 else s.pc.toNat := by
  simp only [skipIf_pc_toNat, beq_iff_eq, BitVec.toNat_inj]

/-- A skip on difference (R124, R126). -/
theorem skipIf_bne_pc_toNat (a b : Byte) (s : State) :
    (skipIf (a != b) s).pc.toNat = if a.toNat = b.toNat then s.pc.toNat else (s.pc.toNat + 2) % 65536 := by
  simp only [skipIf_pc_toNat, bne_iff_ne, ne_eq, ite_not, BitVec.toNat_inj]

/-- `I` receives its new value whole where that fits 16 bits (R27). -/
theorem setI_i_toNat (a : Nat) (s : State) (h : a < 65536) : (setI a s).i.toNat = a := by
  rw [setI_i, BitVec.toNat_ofNat, Nat.mod_eq_of_lt h]

theorem addToIndex_i_toNat (m : Nat) (x : Reg) (s : State) (h0 : 0 < m) (hm : m ≤ 65536) :
    (addToIndex m x s).i.toNat = (s.i.toNat + (readV s x).toNat) % m :=
  setI_i_toNat _ s (Nat.lt_of_lt_of_le (Nat.mod_lt _ h0) hm)

/-! ## The statements -/

/-- Settles O22, by reading each register after the flag write and the difference, in the four aliasings of `x` and `y`. -/
theorem subtractWritesFlagThenDifference : Obligations.SubtractWritesFlagThenDifference := by
  intro s x y
  refine ⟨_, rfl, ?_, ?_, ?_, ?_, ?_, ?_, rfl⟩
  · intro hx
    rw [readV_subtractInto_writeFlag, if_neg (Ne.symm hx), if_pos rfl, noBorrowFlag_toNat]
  · intro hx hy
    rw [readV_subtractInto_writeFlag, if_pos rfl, if_neg hx, if_neg hy, BitVec.toNat_sub]
    omega
  · intro hx hy
    rw [readV_subtractInto_writeFlag, if_pos hx.symm, if_pos hx, if_neg hy, BitVec.toNat_sub, noBorrowFlag_toNat]
    omega
  · intro hx hy
    rw [readV_subtractInto_writeFlag, if_pos rfl, if_neg hx, if_pos hy, BitVec.toNat_sub, noBorrowFlag_toNat]
    split <;> omega
  · intro hx hy
    rw [readV_subtractInto_writeFlag, if_pos hx.symm, if_pos hx, if_pos hy, BitVec.sub_self]
    rfl
  · intro r hrx hrf
    rw [readV_subtractInto_writeFlag, if_neg hrx, if_neg hrf]

/-- Settles O24: 8XY6 by the registers after the shift with `SHR_DEST` = Y; the X variant is that shift with `y` = `x`. -/
theorem shiftRightWritesFlagThenHalf : Obligations.ShiftRightWritesFlagThenHalf := by
  intro s x y
  refine ⟨⟨_, rfl, ?_, ?_, ?_, ?_, ?_, shiftRight_frame .y x y s⟩, ?_, ?_, ?_, shiftRight_frame .x x y s⟩
  · intro hy
    rw [readV_shiftRight_y, if_neg (Ne.symm hy), if_pos rfl, shrFlag_toNat]
  · intro hx
    rw [readV_shiftRight_y, if_pos rfl, if_neg hx, ushiftRight_one_toNat]
  · intro hx
    left
    rw [readV_shiftRight_y, if_pos rfl, if_pos hx]
  · intro hx hy
    rw [readV_shiftRight_y, if_pos hy.symm, if_pos hx]
  · intro r hry hrf
    rw [readV_shiftRight_y, if_neg hry, if_neg hrf]
  · intro hx
    rw [shiftRight_x_eq]
    constructor
    · rw [readV_shiftRight_y, if_pos rfl, if_neg hx, ushiftRight_one_toNat]
    · rw [readV_shiftRight_y, if_neg (Ne.symm hx), if_pos rfl, shrFlag_toNat]
  · intro hx
    rw [shiftRight_x_eq, readV_shiftRight_y, if_pos hx.symm, if_pos hx]
  · intro r hrx hrf
    rw [shiftRight_x_eq, readV_shiftRight_y, if_neg hrx, if_neg hrf]

/-- Settles O25, by reading each register after the flag write and the shift; `y` is not used. -/
theorem shiftLeftWritesFlagThenDouble : Obligations.ShiftLeftWritesFlagThenDouble := by
  intro s x y
  refine ⟨_, rfl, ?_, ?_, ?_, rfl⟩
  · intro hx
    constructor
    · rw [readV_shiftLeftInto_writeFlag, if_neg (Ne.symm hx), if_pos rfl, shlFlag_toNat]
    · rw [readV_shiftLeftInto_writeFlag, if_pos rfl, if_neg hx, shiftLeft_one_toNat]
  · intro hx
    rw [readV_shiftLeftInto_writeFlag, if_pos hx.symm, if_pos hx, flagByte_shiftLeft_one_toNat, shlFlag_toNat]
  · intro r hrx hrf
    rw [readV_shiftLeftInto_writeFlag, if_neg hrx, if_neg hrf]

/-- Settles O27: each of the four is a `skipIf` on the equality or the difference of two bytes. -/
theorem skipsAddTwoWhenTheirConditionHolds : Obligations.SkipsAddTwoWhenTheirConditionHolds :=
  fun s _ _ _ _ =>
    ⟨⟨_, rfl, skipIf_frame _ s, skipIf_beq_pc_toNat _ _ s⟩, ⟨_, rfl, skipIf_frame _ s, skipIf_bne_pc_toNat _ _ s⟩,
      ⟨_, rfl, skipIf_frame _ s, skipIf_beq_pc_toNat _ _ s⟩, ⟨_, rfl, skipIf_frame _ s, skipIf_bne_pc_toNat _ _ s⟩⟩

/-- Settles O32: both write `I` alone, and five times a byte fits 16 bits. -/
theorem indexArithmetic : Obligations.IndexArithmetic := by
  intro s x
  have hfit : (readV s x).toNat * 5 < 65536 := by
    have := (readV s x).isLt
    omega
  exact ⟨⟨_, rfl, addToIndex_i_toNat 4096 x s (by decide) (by decide), rfl⟩, ⟨_, rfl, setI_i_toNat _ s hfit, rfl⟩,
    fun m h0 hm => addToIndex_i_toNat m x s h0 hm⟩

end Sys2Proof.Machine
end

section
/-! SUPPORT. The encoder gives back the word the decoder read (spec/30_encoding.md R71, R72, R74): first the packed words of
each format, then the four families that decode further, then the whole decoder. -/

namespace Sys2Proof

/-! ## Packing the fields of a word -/

theorem packNNN_fields {w : Word} {op : Nat} (hop : (fieldOp w).toNat = op) : packNNN op (fieldNNN w) = w := by
  apply BitVec.eq_of_toNat_eq
  have := w.isLt
  rw [fieldOp_toNat] at hop
  rw [packNNN_toNat _ _ (by omega), fieldNNN_toNat]
  omega

theorem packXNN_fields {w : Word} {op : Nat} {nn : Byte} (hop : (fieldOp w).toNat = op) (hnn : fieldNN w = nn) :
    packXNN op (fieldX w) nn = w := by
  apply BitVec.eq_of_toNat_eq
  have := w.isLt
  rw [fieldOp_toNat] at hop
  rw [packXNN_toNat _ _ _ (by omega), ← hnn, fieldX_val, fieldNN_toNat]
  omega

theorem packXYN_fields {w : Word} {op : Nat} {n : Nibble} (hop : (fieldOp w).toNat = op) (hn : fieldN w = n) :
    packXYN op (fieldX w) (fieldY w) n = w := by
  apply BitVec.eq_of_toNat_eq
  have := w.isLt
  rw [fieldOp_toNat] at hop
  rw [packXYN_toNat _ _ _ _ (by omega), ← hn, fieldX_val, fieldY_val, fieldN_toNat]
  omega

/-- The words of `SCD`: twelve fixed bits, then the nibble `n` (R75 row 1). -/
theorem scdWord_fieldN {w : Word} (h : w.extractLsb' 4 12 = 0x00C) : BitVec.ofNat 16 (0x00C0 + (fieldN w).toNat) = w := by
  have hw : w.toNat / 16 % 4096 = 0x00C := by
    have := congrArg BitVec.toNat h
    rwa [BitVec.extractLsb'_toNat, Nat.shiftRight_eq_div_pow] at this
  apply BitVec.eq_of_toNat_eq
  have := w.isLt
  rw [BitVec.toNat_ofNat, fieldN_toNat]
  omega

/-! ## The families -/

theorem encode_decode0 {w : Word} (hop : (fieldOp w).toNat = 0x0) : encode (decode0 w) = w := by
  unfold decode0
  split_ifs with hscd hcls hret hscr hscl hexit hlow hhigh
  · exact scdWord_fieldN hscd
  · exact hcls.symm
  · exact hret.symm
  · exact hscr.symm
  · exact hscl.symm
  · exact hexit.symm
  · exact hlow.symm
  · exact hhigh.symm
  · exact packNNN_fields hop

theorem encode_decode8 {w : Word} (hop : (fieldOp w).toNat = 0x8) : encode (decode8 w) = w := by
  unfold decode8
  split_ifs
  case neg => exact packXYN_fields hop rfl
  all_goals exact packXYN_fields hop ‹_›

theorem encode_decodeE {w : Word} (hop : (fieldOp w).toNat = 0xE) : encode (decodeE w) = w := by
  unfold decodeE
  split_ifs
  case neg => exact packXNN_fields hop rfl
  all_goals exact packXNN_fields hop ‹_›

theorem encode_decodeF {w : Word} (hop : (fieldOp w).toNat = 0xF) : encode (decodeF w) = w := by
  unfold decodeF
  split_ifs
  case neg => exact packXNN_fields hop rfl
  all_goals exact packXNN_fields hop ‹_›

/-! ## The whole decoder -/

/-- A conditional decoder answers an instruction of `w` when each branch does. -/
theorem encode_ite {w : Word} {p : Prop} [Decidable p] {i j : Instr} (hi : p → encode i = w) (hj : ¬p → encode j = w) :
    encode (if p then i else j) = w :=
  iteInduction (motive := fun k => encode k = w) hi hj

/-- The encoding of the instruction a word decodes to is that word (R74, R81): no bit is dropped. -/
theorem encode_decodeWord (w : Word) : encode (decodeWord w) = w := by
  unfold decodeWord
  refine encode_ite (fun h => encode_decode0 (congrArg BitVec.toNat h)) fun h0 => ?_
  refine encode_ite (fun h => packNNN_fields (congrArg BitVec.toNat h)) fun h1 => ?_
  refine encode_ite (fun h => packNNN_fields (congrArg BitVec.toNat h)) fun h2 => ?_
  refine encode_ite (fun h => packXNN_fields (congrArg BitVec.toNat h) rfl) fun h3 => ?_
  refine encode_ite (fun h => packXNN_fields (congrArg BitVec.toNat h) rfl) fun h4 => ?_
  refine encode_ite (fun h => packXYN_fields (congrArg BitVec.toNat h) rfl) fun h5 => ?_
  refine encode_ite (fun h => packXNN_fields (congrArg BitVec.toNat h) rfl) fun h6 => ?_
  refine encode_ite (fun h => packXNN_fields (congrArg BitVec.toNat h) rfl) fun h7 => ?_
  refine encode_ite (fun h => encode_decode8 (congrArg BitVec.toNat h)) fun h8 => ?_
  refine encode_ite (fun h => packXYN_fields (congrArg BitVec.toNat h) rfl) fun h9 => ?_
  refine encode_ite (fun h => packNNN_fields (congrArg BitVec.toNat h)) fun hA => ?_
  refine encode_ite (fun h => packNNN_fields (congrArg BitVec.toNat h)) fun hB => ?_
  refine encode_ite (fun h => packXNN_fields (congrArg BitVec.toNat h) rfl) fun hC => ?_
  refine encode_ite (fun h => packXYN_fields (congrArg BitVec.toNat h) rfl) fun hD => ?_
  refine encode_ite (fun h => encode_decodeE (congrArg BitVec.toNat h)) fun hE => ?_
  exact encode_decodeF (by bv_omega)

end Sys2Proof
end

section
/-! SUPPORT. The execute stage said once: `effect` is what an instruction does where it raises no BoundsError, written as the
record update it is, so that the fields it leaves alone can be read off; `exec` is `guarded` by the check of that instruction
(spec/10_state.md R22 to R41, spec/60_exceptions.md R201 to R205). -/

namespace Sys2Proof.Machine

/-- The state an instruction leaves where it raises no BoundsError. -/
def effect : Instr → State → State
  | .scd n, s => paint (s.px.scrollDown n.toNat) s
  | .cls, s => paint Display.clear s
  | .ret, s => setPc (pop16 s).1 (pop16 s).2
  | .scr, s => paint (s.px.scrollRight Config.scrollH) s
  | .scl, s => paint (s.px.scrollLeft Config.scrollH) s
  | .exit, s => halt s
  | .low, s | .high, s | .sys _, s | .skp _, s | .sknp _, s | .ldVxK _, s => s
  | .jp nnn, s => setPc (nnn.setWidth 16) s
  | .call nnn, s => setPc (nnn.setWidth 16) (push16 s.pc s)
  | .seImm x nn, s => { s with pc := (skipIf (readV s x == nn) s).pc }
  | .sneImm x nn, s => { s with pc := (skipIf (readV s x != nn) s).pc }
  | .seReg x y _, s => { s with pc := (skipIf (readV s x == readV s y) s).pc }
  | .sneReg x y _, s => { s with pc := (skipIf (readV s x != readV s y) s).pc }
  | .jpV0 nnn, s => setPc (s.pc + (readV s 0).setWidth 16 + nnn.setWidth 16) s
  | .ldImm x nn, s => writeV x nn s
  | .addImm x nn, s => writeV x (readV s x + nn) s
  | .ldReg x y, s => writeV x (readV s y) s
  | .orReg x y, s => writeV x (readV s x ||| readV s y) s
  | .andReg x y, s => writeV x (readV s x &&& readV s y) s
  | .xorReg x y, s => writeV x (readV s x ^^^ readV s y) s
  | .addReg x y, s => writeFlag (carryFlag (readV s x) (readV s y)) (writeV x (readV s x + readV s y) s)
  | .subReg x y, s => subtractInto x y (writeFlag (noBorrowFlag (readV s x) (readV s y)) s)
  | .shrReg x y, s => shiftRight .y x y s
  | .subnReg x y, s => writeFlag (noBorrowFlag (readV s y) (readV s x)) (writeV x (readV s y - readV s x) s)
  | .shlReg x _, s => shiftLeftInto x (writeFlag (shlFlag (readV s x)) s)
  | .ldI nnn, s => setI nnn.toNat s
  | .rnd x nn, s => countDraw (randomInto (drawnByte s) x nn s)
  | .drw x y n, s => paint (spriteOf x y n s).1 (writeFlag (spriteOf x y n s).2 s)
  | .ldVxDt x, s => writeV x s.dt s
  | .ldDtVx x, s => setDt (readV s x) s
  | .ldStVx x, s => setSt (readV s x) s
  | .addI x, s => addToIndex Config.iAddModulus x s
  | .ldF x, s => setI ((readV s x).toNat * Config.glyphSize) s
  | .ldB x, s => { s with mem := s.mem.writeBytes (effAddr s 0) (bcdDigits (readV s x)) }
  | .storeRegs x, s => { s with mem := (storeUpTo (x.val + 1) s).mem }
  | .loadRegs x, s => { s with v := (loadUpTo (x.val + 1) s).v }
  | .illegal8 x y n, s => raiseDecode (.illegal8 x y n) s
  | .illegalE x nn, s => raiseDecode (.illegalE x nn) s
  | .illegalF x nn, s => raiseDecode (.illegalF x nn) s

/-- The execute stage is the check of the instruction, then its effect. -/
theorem exec_eq_guarded (i : Instr) (s : State) : exec i s = guarded i s (effect i s) := by
  cases i
  case seImm | sneImm | seReg | sneReg => exact congrArg _ (skipIf_frame _ s)
  case storeRegs x => exact congrArg (guarded (.storeRegs x) s) (storeUpTo_frame (x.val + 1) s)
  case loadRegs x => exact congrArg (guarded (.loadRegs x) s) (loadUpTo_frame (x.val + 1) s)
  all_goals rfl

/-- What an execute stage can do: take the fault of its BoundsError, or have its effect. -/
theorem exec_cases (i : Instr) (s : State) :
    (∃ c, boundsFault i s = some c ∧ exec i s = .next (takeFault c (encode i) s)) ∨
      (boundsFault i s = none ∧ exec i s = .next (effect i s)) := by
  rw [exec_eq_guarded]
  exact guarded_cases i s (effect i s)

theorem exec_of_boundsFault {i : Instr} {s : State} {c : FaultCode} (h : boundsFault i s = some c) :
    exec i s = .next (takeFault c (encode i) s) := by
  rw [exec_eq_guarded, guarded_of_some i s _ c h]

theorem exec_of_no_boundsFault {i : Instr} {s : State} (h : boundsFault i s = none) : exec i s = .next (effect i s) := by
  rw [exec_eq_guarded, guarded_of_none i s _ h]

/-- A property of the fault entry and of the effect is one of the execute stage: how every frame statement below is put
together. -/
theorem exec_answers {i : Instr} {s : State} {P : State → Prop}
    (hfault : ∀ c, boundsFault i s = some c → P (takeFault c (encode i) s))
    (heffect : boundsFault i s = none → P (effect i s)) : ∃ t, exec i s = .next t ∧ P t := by
  rcases exec_cases i s with ⟨c, hc, he⟩ | ⟨hn, he⟩
  · exact ⟨_, he, hfault c hc⟩
  · exact ⟨_, he, heffect hn⟩

/-! ## The frame of the effect, field by field -/

theorem readV_effect (i : Instr) (s : State) (r : Reg) (h : i.writesV r = false) : readV (effect i s) r = readV s r := by
  cases i <;> simp only [Instr.writesV, Bool.or_eq_false_iff, beq_eq_false_iff_ne, decide_eq_false_iff_not] at h
  case ldImm | addImm | rnd | ldReg | orReg | andReg | xorReg | ldVxDt => exact readV_writeV_other _ r _ s h
  case addReg | subnReg =>
    obtain ⟨hx, hf⟩ := h
    rw [effect, readV_writeFlag, if_neg hf, readV_writeV_other _ _ _ _ hx]
  case subReg =>
    obtain ⟨hx, hf⟩ := h
    rw [effect, readV_subtractInto_writeFlag, if_neg hx, if_neg hf]
  case shlReg =>
    obtain ⟨hx, hf⟩ := h
    rw [effect, readV_shiftLeftInto_writeFlag, if_neg hx, if_neg hf]
  case shrReg =>
    obtain ⟨hy, hf⟩ := h
    rw [effect, readV_shiftRight_y, if_neg hy, if_neg hf]
  case drw => exact readV_writeV_other VF r _ s h
  case loadRegs x =>
    have hr := loadUpTo_readV (x.val + 1) s x.isLt r
    rwa [if_neg fun hlt => h (Nat.le_of_lt_succ hlt)] at hr
  all_goals rfl

theorem effect_pc (i : Instr) (s : State) (h : i.transfers = false) : (effect i s).pc = s.pc := by
  cases i
  case ret | jp | call | seImm | sneImm | seReg | sneReg | jpV0 => cases h
  all_goals rfl

/-- `I` and the instructions that write it (R26). -/
theorem effect_i (i : Instr) (s : State) :
    (effect i s).i = s.i ∨ (∃ nnn, i = .ldI nnn) ∨ (∃ x, i = .addI x) ∨ ∃ x, i = .ldF x := by
  cases i
  case ldI nnn => exact .inr (.inl ⟨nnn, rfl⟩)
  case addI x => exact .inr (.inr (.inl ⟨x, rfl⟩))
  case ldF x => exact .inr (.inr (.inr ⟨x, rfl⟩))
  all_goals exact .inl rfl

/-- `SP` and the instructions that write it (R28). -/
theorem effect_sp (i : Instr) (s : State) : (effect i s).sp = s.sp ∨ (∃ nnn, i = .call nnn) ∨ i = .ret := by
  cases i
  case call nnn => exact .inr (.inl ⟨nnn, rfl⟩)
  case ret => exact .inr (.inr rfl)
  all_goals exact .inl rfl

theorem effect_dt (i : Instr) (s : State) : (effect i s).dt = s.dt ∨ ∃ x, i = .ldDtVx x := by
  cases i
  case ldDtVx x => exact .inr ⟨x, rfl⟩
  all_goals exact .inl rfl

theorem effect_st (i : Instr) (s : State) : (effect i s).st = s.st ∨ ∃ x, i = .ldStVx x := by
  cases i
  case ldStVx x => exact .inr ⟨x, rfl⟩
  all_goals exact .inl rfl

theorem effect_draws (i : Instr) (s : State) : (effect i s).draws = s.draws ∨ ∃ x nn, i = .rnd x nn := by
  cases i
  case rnd x nn => exact .inr ⟨x, nn, rfl⟩
  all_goals exact .inl rfl

@[simp] theorem effect_keys (i : Instr) (s : State) : (effect i s).keys = s.keys := by
  cases i <;> rfl

@[simp] theorem effect_beep (i : Instr) (s : State) : (effect i s).beep = s.beep := by
  cases i <;> rfl

theorem effect_px (i : Instr) (s : State) (h : i.paints = false) : (effect i s).px = s.px := by
  cases i
  case scd | cls | scr | scl | drw => cases h
  all_goals rfl

/-- `RP` is set by what paints and kept by everything else (R33). -/
theorem effect_rp (i : Instr) (s : State) : (effect i s).rp = (i.paints || s.rp) := by
  cases i <;> rfl

/-- An illegal word has one effect, its DecodeError (R203). -/
theorem effect_of_illegal (i : Instr) (s : State) (h : i.illegal = true) : effect i s = raiseDecode i s := by
  cases i
  case illegal8 | illegalE | illegalF => rfl
  all_goals cases h

/-- A legal instruction does not touch `FAULT` or `FINFO` (R202). -/
theorem effect_fault_finfo (i : Instr) (s : State) (h : i.illegal = false) :
    (effect i s).fault = s.fault ∧ (effect i s).finfo = s.finfo := by
  cases i
  case illegal8 | illegalE | illegalF => cases h
  all_goals exact ⟨rfl, rfl⟩

/-- Of the legal instructions only `EXIT` touches `RUN` (R32). -/
theorem effect_run (i : Instr) (s : State) (h : i.illegal = false) (hexit : i ≠ .exit) : (effect i s).run = s.run := by
  cases i
  case illegal8 | illegalE | illegalF => cases h
  case exit => exact absurd rfl hexit
  all_goals rfl

/-- The instructions that can raise a BoundsError (R201). -/
theorem boundsFault_only_listed (i : Instr) (s : State) (h : boundsFault i s ≠ none) :
    i = .ret ∨ (∃ nnn, i = .call nnn) ∨ (∃ x, i = .ldB x) ∨ (∃ x, i = .storeRegs x) ∨ (∃ x, i = .loadRegs x) ∨
      ∃ x y n, i = .drw x y n := by
  cases i
  case ret => exact .inl rfl
  case call nnn => exact .inr (.inl ⟨nnn, rfl⟩)
  case ldB x => exact .inr (.inr (.inl ⟨x, rfl⟩))
  case storeRegs x => exact .inr (.inr (.inr (.inl ⟨x, rfl⟩)))
  case loadRegs x => exact .inr (.inr (.inr (.inr (.inl ⟨x, rfl⟩))))
  case drw x y n => exact .inr (.inr (.inr (.inr (.inr ⟨x, y, n, rfl⟩))))
  all_goals exact absurd rfl h

/-! ## The statements about the execute stage -/

/-- Settles O16: a legal effect keeps `FAULT` and `FINFO`, and `RUN` but for `EXIT`. -/
theorem onlyTheListedInstructionsFault : Obligations.OnlyTheListedInstructionsFault := by
  intro i s
  refine ⟨fun hlegal hnone => ?_, boundsFault_only_listed i s⟩
  obtain ⟨hfault, hfinfo⟩ := effect_fault_finfo i s hlegal
  exact ⟨_, exec_of_no_boundsFault hnone, hfault, hfinfo, effect_run i s hlegal⟩

/-- Settles O47, by the register frame of the effect; a fault entry writes no register. -/
theorem registersWrittenOnlyAsTheTableSays : Obligations.RegistersWrittenOnlyAsTheTableSays := by
  intro i s
  refine exec_answers (fun c _ r _ => rfl) fun hnone r hr => ?_
  exact readV_effect i s r (hr.resolve_right (absurd hnone))

/-- Settles O49, by the frame of `Px` and the value of `RP` in the effect. -/
theorem displayWrittenOnlyByDrawingInstructions : Obligations.DisplayWrittenOnlyByDrawingInstructions := by
  intro i s
  refine exec_answers (fun c hc => ⟨fun _ => ⟨rfl, rfl⟩, fun _ hnone => ?_⟩) fun hnone => ⟨fun h => ?_, fun h _ => ?_⟩
  · rw [hc] at hnone
    cases hnone
  · have hpaints : i.paints = false := h.resolve_right (absurd hnone)
    exact ⟨effect_px i s hpaints, by rw [effect_rp, hpaints, Bool.false_or]⟩
  · rw [effect_rp, h, Bool.true_or]

/-- Settles O50, by the frames of the six fields in the effect; a fault entry writes none of them. -/
theorem specialRegistersWrittenOnlyByTheirInstructions : Obligations.SpecialRegistersWrittenOnlyByTheirInstructions := by
  intro i s
  refine exec_answers (fun c _ => ⟨.inl rfl, .inl rfl, .inl rfl, .inl rfl, .inl rfl, rfl, rfl⟩) fun _ => ?_
  exact ⟨effect_i i s, effect_sp i s, effect_dt i s, effect_st i s, effect_draws i s, effect_keys i s, effect_beep i s⟩

/-- Settles O51, by the frame of `PC` in the effect; a fault entry does not write it. -/
theorem programCounterWrittenOnlyByTransfers : Obligations.ProgramCounterWrittenOnlyByTransfers := by
  intro i s
  refine exec_answers (fun c _ _ => rfl) fun hnone h => ?_
  exact effect_pc i s (h.resolve_right (absurd hnone))

end Sys2Proof.Machine
end

section
/-! SUPPORT. One cycle said once: what `step` does on a halted core, on a fetch outside memory, on a BoundsError and on
everything else (spec/70_reset_and_hazards.md R250, spec/60_exceptions.md R201 to R207), and the statements that follow. -/

namespace Sys2Proof.Machine

/-! ## The fetch (R53) -/

/-- The fetch stage fails exactly where `PC` is above 4094 (R25, R201). -/
theorem fetchOpcode_eq_none (s : State) : fetchOpcode s = none ↔ s.pc.toNat > 4094 := by
  unfold fetchOpcode
  split <;> simp_all

theorem fetchOpcode_of_le {s : State} (h : s.pc.toNat ≤ 4094) :
    fetchOpcode s = some (bigEndian (s.mem.read s.pc.toNat) (s.mem.read (s.pc.toNat + 1))) :=
  if_neg (Nat.not_lt.2 h)

/-! ## The four ways a cycle ends (R250) -/

theorem step_of_halted {s : State} (h : s.run = false) : step s = .next (haltedCycle s) := by
  rw [step, h]
  rfl

theorem step_of_fetch_none {s : State} (hrun : s.run = true) (hfetch : fetchOpcode s = none) :
    step s = .next (fetchFault s) := by
  rw [step, hrun, hfetch]
  rfl

theorem step_of_fetch {s : State} {w : Word} (hrun : s.run = true) (hfetch : fetchOpcode s = some w) :
    step s = executeCycle (decodeWord w) (advance s) := by
  rw [step, hrun, hfetch]
  rfl

/-- The end of the cycle in which the execute stage answered `t` (R204, R226). -/
theorem executeCycle_of_exec {i : Instr} {s t : State} (h : exec i s = .next t) :
    executeCycle i s = .next (if (boundsFault i s).isSome then t else tick t) := by
  rw [executeCycle, h, finishCycle]

/-- A BoundsError ends the cycle without a tick; `FINFO` is the word fetched (R201, R204). -/
theorem step_of_boundsFault {s : State} {w : Word} {c : FaultCode} (hrun : s.run = true) (hfetch : fetchOpcode s = some w)
    (hc : boundsFault (decodeWord w) (advance s) = some c) : step s = .next (takeFault c w (advance s)) := by
  rw [step_of_fetch hrun hfetch, executeCycle_of_exec (exec_of_boundsFault hc), hc, encode_decodeWord]
  rfl

/-- Every other instruction has its effect, then the tick (R226). -/
theorem step_of_no_boundsFault {s : State} {w : Word} (hrun : s.run = true) (hfetch : fetchOpcode s = some w)
    (hnone : boundsFault (decodeWord w) (advance s) = none) :
    step s = .next (tick (effect (decodeWord w) (advance s))) := by
  rw [step_of_fetch hrun hfetch, executeCycle_of_exec (exec_of_no_boundsFault hnone), hnone]
  rfl

/-- What a cycle can do. -/
theorem step_cases (s : State) :
    (s.run = false ∧ step s = .next (haltedCycle s)) ∨
    (s.run = true ∧ fetchOpcode s = none ∧ step s = .next (fetchFault s)) ∨
    (∃ w c, s.run = true ∧ fetchOpcode s = some w ∧ boundsFault (decodeWord w) (advance s) = some c ∧
      step s = .next (takeFault c w (advance s))) ∨
    ∃ w, s.run = true ∧ fetchOpcode s = some w ∧ boundsFault (decodeWord w) (advance s) = none ∧
      step s = .next (tick (effect (decodeWord w) (advance s))) := by
  cases hrun : s.run with
  | false => exact .inl ⟨rfl, step_of_halted hrun⟩
  | true =>
    cases hfetch : fetchOpcode s with
    | none => exact .inr (.inl ⟨rfl, rfl, step_of_fetch_none hrun hfetch⟩)
    | some w =>
      cases hbounds : boundsFault (decodeWord w) (advance s) with
      | some c => exact .inr (.inr (.inl ⟨w, c, rfl, rfl, hbounds, step_of_boundsFault hrun hfetch hbounds⟩))
      | none => exact .inr (.inr (.inr ⟨w, rfl, rfl, hbounds, step_of_no_boundsFault hrun hfetch hbounds⟩))

/-! ## The statements about the cycle -/

/-- Settles O6: two bytes decode to `i` exactly when `i` is the instruction of the word the fetch stage reads. -/
theorem stepRunsTheDecodedInstruction : Obligations.StepRunsTheDecodedInstruction := by
  intro s t i rest hrun hpc hdecode hexec
  obtain ⟨rfl, rfl⟩ : decodeWord (bigEndian (s.mem.read s.pc.toNat) (s.mem.read (s.pc.toNat + 1))) = i ∧ [] = rest := by
    simpa [decodeBytes] using hdecode
  rw [step_of_fetch hrun (fetchOpcode_of_le hpc)]
  exact executeCycle_of_exec hexec

/-- Settles O9: above 4094 there is no fetch. -/
theorem fetchOutsideMemoryFaults : Obligations.FetchOutsideMemoryFaults :=
  fun s hrun hpc => step_of_fetch_none hrun ((fetchOpcode_eq_none s).2 hpc)

/-- Settles O11, by the cycle of a BoundsError: the fault entry on the advanced state. -/
theorem boundsErrorSkipsTheTickAndEveryWrite : Obligations.BoundsErrorSkipsTheTickAndEveryWrite :=
  fun _ _ _ hrun hfetch hc => step_of_boundsFault hrun hfetch hc

end Sys2Proof.Machine
end

section
/-! SUPPORT. The invariant: it holds after reset, every load and every move of the host keeps it, and every cycle keeps it
(spec/10_state.md R27, R29, R35, spec/60_exceptions.md R209, R230 to R236). -/

namespace Sys2Proof.Machine

/-! ## The parts of the invariant under an effect -/

/-- Every effect keeps the canonical form of memory: only the call and the two stores write it. -/
theorem effect_mem_wf (i : Instr) (s : State) (h : s.mem.wf = true) : (effect i s).mem.wf = true := by
  cases i
  case call => exact Memory.wf_write _ _ _ (Memory.wf_write _ _ _ h)
  case ldB => exact Memory.wf_writeBytes _ _ _ h
  case storeRegs x => exact storeUpTo_wf (x.val + 1) s h
  all_goals exact h

/-- Every effect keeps `I` an address: the largest value written is five times a byte (R27, R172, R173). -/
theorem effect_i_lt (i : Instr) (s : State) (h : s.i.toNat < 4096) : (effect i s).i.toNat < 4096 := by
  rcases effect_i i s with hsame | ⟨nnn, rfl⟩ | ⟨x, rfl⟩ | ⟨x, rfl⟩
  · rwa [hsame]
  · have := nnn.isLt
    rw [effect, setI_i_toNat _ s (by omega)]
    exact this
  · rw [effect, addToIndex_i_toNat 4096 x s (by decide) (by decide)]
    exact Nat.mod_lt _ (by decide)
  · have := (readV s x).isLt
    rw [effect, setI_i_toNat _ s (by simp only [Config.glyphSize]; omega)]
    simp only [Config.glyphSize]
    omega

/-- The stack region of R29: `SP` between its bounds, at an even distance from the base. -/
def InStack (sp : Word) : Prop :=
  Config.stackBase ≤ sp.toNat ∧ sp.toNat ≤ Config.stackLimit ∧ (sp.toNat - Config.stackBase) % 2 = 0

/-- A push that passes its check stays in the stack region. -/
theorem inStack_push {s : State} (h : InStack s.sp) (hcheck : pushCheck s = none) : InStack (s.sp + 2) := by
  rw [pushCheck_eq_none] at hcheck
  have hadd : (s.sp + 2).toNat = s.sp.toNat + 2 := by bv_omega
  unfold InStack at *
  simp only [Config.stackBase, Config.stackLimit, hadd] at *
  omega

/-- A pop that passes its check stays in the stack region. -/
theorem inStack_pop {s : State} (h : InStack s.sp) (hcheck : popCheck s = none) : InStack (s.sp - 2) := by
  rw [popCheck_eq_none] at hcheck
  have hsub : (s.sp - 2).toNat = s.sp.toNat - 2 := by bv_omega
  unfold InStack at *
  simp only [Config.stackBase, Config.stackLimit, hsub] at *
  omega

/-- Every effect keeps `SP` in the stack region: the call pushes and the return pops, each after its check. -/
theorem effect_inStack (i : Instr) (s : State) (h : InStack s.sp) (hnone : boundsFault i s = none) :
    InStack (effect i s).sp := by
  rcases effect_sp i s with hsame | ⟨nnn, rfl⟩ | rfl
  · rwa [hsame]
  · exact inStack_push h hnone
  · exact inStack_pop h hnone

/-! ## The invariant under each stage of the cycle -/

theorem inv_inStack {s : State} (h : Inv s) : InStack s.sp := ⟨h.stackAbove, h.stackBelow, h.stackEven⟩

/-- The invariant reads six fields: a state that agrees on them meets it. -/
theorem inv_congr {s t : State} (h : Inv s) (hmem : t.mem = s.mem) (hsp : t.sp = s.sp) (hi : t.i = s.i)
    (hrun : t.run = s.run) (hfault : t.fault = s.fault) (hfinfo : t.finfo = s.finfo) : Inv t where
  memCanonical := hmem ▸ h.memCanonical
  stackAbove := hsp ▸ h.stackAbove
  stackBelow := hsp ▸ h.stackBelow
  stackEven := hsp ▸ h.stackEven
  indexBelow := hi ▸ h.indexBelow
  faultHalts := by rw [hrun, hfault]; exact h.faultHalts
  noFaultNoInfo := by rw [hfault, hfinfo]; exact h.noFaultNoInfo

/-- A fault entry keeps it: the core is halted and the code is not `NONE`. -/
theorem inv_takeFault {s : State} {c : FaultCode} (w : Word) (h : Inv s) (hc : c ≠ .none) : Inv (takeFault c w s) :=
  { h with
    faultHalts := fun hrun => absurd hrun Bool.false_ne_true
    noFaultNoInfo := fun hnone => absurd hnone hc }

theorem inv_haltedCycle {s : State} (h : Inv s) : Inv (haltedCycle s) := inv_congr h rfl rfl rfl rfl rfl rfl

theorem inv_advance {s : State} (h : Inv s) : Inv (advance s) := inv_congr h rfl rfl rfl rfl rfl rfl

theorem inv_tick {s : State} (h : Inv s) : Inv (tick s) := inv_congr h rfl rfl rfl rfl rfl rfl

theorem inv_fetchFault {s : State} (h : Inv s) : Inv (fetchFault s) :=
  inv_takeFault s.pc (inv_haltedCycle h) (by decide)

/-- The effect of every instruction that passes its check keeps it. -/
theorem inv_effect {i : Instr} {s : State} (h : Inv s) (hnone : boundsFault i s = none) : Inv (effect i s) := by
  cases hlegal : i.illegal with
  | true =>
    rw [effect_of_illegal i s hlegal]
    exact inv_takeFault (encode i) h (by decide)
  | false =>
    obtain ⟨hfault, hfinfo⟩ := effect_fault_finfo i s hlegal
    obtain ⟨habove, hbelow, heven⟩ := effect_inStack i s (inv_inStack h) hnone
    refine ⟨effect_mem_wf i s h.memCanonical, habove, hbelow, heven, effect_i_lt i s h.indexBelow, fun hrun => ?_, ?_⟩
    · by_cases hexit : i = .exit
      · subst hexit
        cases hrun
      · rw [effect_run i s hlegal hexit] at hrun
        rw [hfault]
        exact h.faultHalts hrun
    · rw [hfault, hfinfo]
      exact h.noFaultNoInfo

/-- Every cycle keeps the invariant. -/
theorem inv_step {s t : State} (h : Inv s) (hstep : step s = .next t) : Inv t := by
  rcases step_cases s with ⟨-, he⟩ | ⟨-, -, he⟩ | ⟨w, c, -, -, hc, he⟩ | ⟨w, -, -, hnone, he⟩
  all_goals
    rw [he] at hstep
    cases hstep
  · exact inv_haltedCycle h
  · exact inv_fetchFault h
  · exact inv_takeFault w (inv_advance h) fun hcode => boundsFault_ne_none _ _ (hcode ▸ hc)
  · exact inv_tick (inv_effect (inv_advance h) hnone)

/-! ## The invariant outside the cycle -/

theorem inv_reset : Inv State.reset :=
  ⟨rfl, by decide, by decide, by decide, by decide, fun _ => rfl, fun _ => rfl⟩

/-- A load that is not refused stores its bytes and nothing else (R230). -/
theorem load_eq_some {offset : Nat} {bytes : List Byte} {s t : State} (h : load offset bytes s = some t) :
    t = { s with mem := s.mem.writeBytes offset bytes } := by
  unfold load at h
  split at h
  · cases h
  · exact (Option.some.inj h).symm

theorem inv_load {offset : Nat} {bytes : List Byte} {s t : State} (h : Inv s) (hload : load offset bytes s = some t) :
    Inv t := by
  rw [load_eq_some hload]
  exact { h with memCanonical := Memory.wf_writeBytes bytes s.mem offset h.memCanonical }

theorem inv_loaded {s : State} (h : Loaded s) : Inv s := by
  induction h with
  | reset => exact inv_reset
  | load offset bytes s t _ hload ih => exact inv_load ih hload

theorem inv_reachable {s : State} (h : Reachable s) : Inv s := by
  induction h with
  | started s hloaded => exact inv_loaded hloaded
  | cycled s t _ hstep ih => exact inv_step ih hstep
  | repaintCleared s _ ih => exact inv_congr ih rfl rfl rfl rfl rfl rfl
  | keysDriven k s _ ih => exact inv_congr ih rfl rfl rfl rfl rfl rfl

/-! ## The statements -/

/-- Settles O53, by the four ways a cycle ends and the invariant under each stage. -/
theorem stepKeepsTheInvariant : Obligations.StepKeepsTheInvariant :=
  fun _ _ h hstep => inv_step h hstep

/-- Settles O54, by induction on how the state was reached. -/
theorem reachableStatesMeetTheInvariant : Obligations.ReachableStatesMeetTheInvariant :=
  fun _ h => inv_reachable h

/-- Settles O52, field by field on the reset state. -/
theorem resetMeetsTheInvariant : Obligations.ResetMeetsTheInvariant :=
  inv_reset

end Sys2Proof.Machine
end

section
/-! SUPPORT. Noninterference of the key port and the repaint flag: writing them commutes with every stage of the cycle
(spec/10_state.md R33, R39, spec/70_reset_and_hazards.md R252). -/

namespace Sys2Proof.Machine

/-- `s` with other contents of `K` and `RP`, the two fields the host writes between cycles (R231, R232). -/
def withPorts (k : Vector Bool 16) (b : Bool) (s : State) : State := { s with keys := k, rp := b }

section
variable (k : Vector Bool 16) (b : Bool)

/-! ## Nothing reads them -/

theorem fetchOpcode_withPorts (s : State) : fetchOpcode (withPorts k b s) = fetchOpcode s := rfl

theorem boundsFault_withPorts (i : Instr) (s : State) : boundsFault i (withPorts k b s) = boundsFault i s := by
  cases i <;> rfl

theorem skipIf_withPorts (c : Bool) (s : State) : skipIf c (withPorts k b s) = withPorts k b (skipIf c s) := by
  cases c <;> rfl

theorem storeUpTo_withPorts (n : Nat) (s : State) : storeUpTo n (withPorts k b s) = withPorts k b (storeUpTo n s) := by
  induction n with
  | zero => rfl
  | succ n ih => rw [storeUpTo, ih]; rfl

theorem loadUpTo_withPorts (n : Nat) (s : State) : loadUpTo n (withPorts k b s) = withPorts k b (loadUpTo n s) := by
  induction n with
  | zero => rfl
  | succ n ih => rw [loadUpTo, ih]; rfl

/-! ## The stages of the cycle -/

theorem advance_withPorts (s : State) : advance (withPorts k b s) = withPorts k b (advance s) := rfl

theorem tick_withPorts (s : State) : tick (withPorts k b s) = withPorts k b (tick s) := rfl

/-- An effect from other ports is the same effect; what paints sets `RP` in both runs (R33). -/
theorem effect_withPorts (i : Instr) (s : State) :
    effect i (withPorts k b s) = withPorts k (i.paints || b) (effect i s) := by
  cases i
  case seImm | sneImm | seReg | sneReg =>
    rw [effect, skipIf_withPorts]
    rfl
  case storeRegs x =>
    rw [effect, storeUpTo_withPorts]
    rfl
  case loadRegs x =>
    rw [effect, loadUpTo_withPorts]
    rfl
  all_goals rfl

/-- A cycle from other ports is the same cycle, but for `K` and `RP`: it ends in the same of the four ways, and the halted
cycle and the two faults write neither field. -/
theorem step_withPorts {s t : State} (h : step s = .next t) :
    ∃ b', step (withPorts k b s) = .next (withPorts k b' t) := by
  rcases step_cases s with ⟨hrun, he⟩ | ⟨hrun, hfetch, he⟩ | ⟨w, c, hrun, hfetch, hc, he⟩ |
    ⟨w, hrun, hfetch, hnone, he⟩
  all_goals
    rw [he] at h
    cases h
    change (withPorts k b s).run = _ at hrun
  · exact ⟨b, step_of_halted hrun⟩
  · rw [← fetchOpcode_withPorts k b] at hfetch
    exact ⟨b, step_of_fetch_none hrun hfetch⟩
  · rw [← fetchOpcode_withPorts k b] at hfetch
    rw [← boundsFault_withPorts k b, ← advance_withPorts] at hc
    exact ⟨b, step_of_boundsFault hrun hfetch hc⟩
  · rw [← fetchOpcode_withPorts k b] at hfetch
    rw [← boundsFault_withPorts k b, ← advance_withPorts] at hnone
    refine ⟨(decodeWord w).paints || b, ?_⟩
    rw [step_of_no_boundsFault hrun hfetch hnone, advance_withPorts, effect_withPorts, tick_withPorts]

end

/-- Settles O57: other contents of `K` and `RP` commute with every way a cycle ends. -/
theorem keysAndRepaintAffectNothingElse : Obligations.KeysAndRepaintAffectNothingElse :=
  fun _ _ k b h => step_withPorts k b h

end Sys2Proof.Machine
end

section
/-! SUPPORT. The state after reset, the load of font and program, the numbers of the fault codes, the random byte and the
downward scroll (spec/10_state.md R34, R41, R45, spec/20_memory.md R66, spec/42_register_immediate.md R143,
spec/40_system_display_control.md R101). -/

namespace Sys2Proof.Machine

/-! ## Loading (R66, R230) -/

theorem load_of_fits {offset : Nat} {bytes : List Byte} (s : State) (h : offset + bytes.length ≤ 4096) :
    load offset bytes s = some { s with mem := s.mem.writeBytes offset bytes } :=
  if_neg (Nat.not_lt.2 h)

theorem load_of_too_long {offset : Nat} {bytes : List Byte} (s : State) (h : 4096 < offset + bytes.length) :
    load offset bytes s = none :=
  if_pos h

/-- The memory that `boot` leaves: the font from 0, then the program from 0x200, over zeros (R242). -/
def bootMemory (font : Vector Byte 80) (program : List Byte) : Memory :=
  (Memory.writeBytes [] Config.fontBase font.toList).writeBytes Config.progBase program

/-- `boot` is the load of the program after that of the font, which always fits. -/
theorem boot_eq_load (font : Vector Byte 80) (program : List Byte) :
    boot font program =
      load Config.progBase program { State.reset with mem := Memory.writeBytes [] Config.fontBase font.toList } := by
  have hfont : Config.fontBase + font.toList.length ≤ 4096 := by simp
  rw [boot, load_of_fits State.reset hfont]
  rfl

theorem bootMemory_read_font (font : Vector Byte 80) (program : List Byte) (k : Fin 80) :
    (bootMemory font program).read k.val = font[k] := by
  have hk : k.val < font.toList.length := by simp
  have hread := Memory.read_writeBytes_inside font.toList [] Config.fontBase k.val rfl hk (by simp)
  rw [Nat.zero_add] at hread
  rw [bootMemory, Memory.read_writeBytes_other _ _ _ _ (by simp only [Config.progBase]; omega), hread]
  simp

theorem bootMemory_read_program (font : Vector Byte 80) (program : List Byte) (hfits : program.length ≤ 3584)
    (k : Fin program.length) : (bootMemory font program).read (0x200 + k.val) = program[k] :=
  Memory.read_writeBytes_inside program _ 0x200 k.val (Memory.wf_writeBytes _ _ _ rfl) k.isLt (by omega)

theorem bootMemory_read_elsewhere (font : Vector Byte 80) (program : List Byte) (a : Nat) (hfont : 80 ≤ a)
    (hprogram : a < 0x200 ∨ 0x200 + program.length ≤ a) : (bootMemory font program).read a = 0 := by
  rw [bootMemory, Memory.read_writeBytes_other _ _ _ _ hprogram, Memory.read_writeBytes_other _ _ _ _ (by simp [hfont])]
  rfl

/-- Settles O56, by what each address reads after the two loads. -/
theorem bootPlacesFontAndProgram : Obligations.BootPlacesFontAndProgram := by
  intro font program
  constructor
  · intro hfits
    refine ⟨{ State.reset with mem := bootMemory font program }, ?_, rfl, bootMemory_read_font font program,
      bootMemory_read_program font program hfits, bootMemory_read_elsewhere font program⟩
    rw [boot_eq_load, load_of_fits _ (by simp only [Config.progBase]; omega)]
    rfl
  · intro hlong
    rw [boot_eq_load, load_of_too_long _ (by simp only [Config.progBase]; omega)]

/-! ## The state after reset (R45) -/

theorem readV_reset (r : Reg) : readV State.reset r = 0 := by
  simp [readV, State.reset]

theorem px_reset (c r : Nat) : State.reset.px.px c r = false := by
  simp [Display.px, State.reset]

/-- Settles O55: the registers and the pixels are the two replicated vectors, every other field is the literal. -/
theorem resetLeavesTheValuesOfTheTable : Obligations.ResetLeavesTheValuesOfTheTable :=
  ⟨readV_reset, rfl, rfl, rfl, rfl, rfl, rfl, rfl, rfl, rfl, rfl, fun _ => rfl, px_reset⟩

/-- Settles O15, code by code. -/
theorem faultCodesAreNumberedAsTheSpecNumbersThem : Obligations.FaultCodesAreNumberedAsTheSpecNumbersThem := by
  refine ⟨rfl, rfl, rfl, rfl, rfl, rfl, rfl, fun c => ?_⟩
  cases c <;> decide

/-! ## The random byte (R41, R143) -/

theorem readV_randomInto (r : Byte) (x q : Reg) (nn : Byte) (s : State) :
    readV (randomInto r x nn s) q = if q = x then r &&& nn else readV s q :=
  readV_writeV x q (r &&& nn) s

/-- A bit that the mask lacks is 0 in the masked byte. -/
theorem getLsbD_and_of_mask_false (r nn : Byte) (k : Nat) (h : nn.getLsbD k = false) : (r &&& nn).getLsbD k = false := by
  rw [BitVec.getLsbD_and, h, Bool.and_false]

/-- Settles O19: the effect writes the masked byte to one register, and the draw is counted. -/
theorem randomByteIsMasked : Obligations.RandomByteIsMasked := by
  constructor
  · intro s x nn
    refine ⟨_, rfl, ?_, fun q hq => ?_, rfl⟩
    · exact (readV_randomInto (drawnByte s) x x nn s).trans (if_pos rfl)
    · exact (readV_randomInto (drawnByte s) x q nn s).trans (if_neg hq)
  · intro s x r nn
    rw [readV_randomInto, if_pos rfl]
    exact ⟨rfl, getLsbD_and_of_mask_false r nn⟩

/-! ## The downward scroll (R101, R107) -/

theorem px_scrollDown (d : Display) (k c r : Nat) (hc : c < 64) (hr : r < 32) :
    (d.scrollDown k).px c r = if k ≤ r then d.px c (r - k) else false :=
  Display.px_build _ c r hc hr

/-- Settles O39: the scroll is painted, and painting sets `RP` whatever `n` is. -/
theorem scrollDownMovesRows : Obligations.ScrollDownMovesRows := by
  intro s n
  refine ⟨paint (s.px.scrollDown n.toNat) s, rfl, fun c r hc hr => ?_, rfl⟩
  rw [paint_px, px_scrollDown _ _ _ _ hc hr]

end Sys2Proof.Machine
end

section
/-! SUPPORT. Memory and the stack: what a push and a pop leave, when their checks fault, which addresses an effect keeps, and
what is fetched after a store (spec/20_memory.md R51 to R57, R64, spec/10_state.md R29, spec/41_jump_call_skip.md R122,
spec/40_system_display_control.md R103). -/

namespace Sys2Proof.Machine

/-! ## The stack checks (R29) -/

theorem pushCheck_of_full {s : State} (h : 0x200 < s.sp.toNat + 2) : pushCheck s = some .stackOverflow :=
  if_pos h

theorem popCheck_of_empty {s : State} (h : s.sp.toNat < 0x54) : popCheck s = some .stackUnderflow :=
  if_pos h

theorem popCheck_of_outside {s : State} (h : 4096 < s.sp.toNat) : popCheck s = some .memRange := by
  have hnonempty : ¬s.sp.toNat < 0x54 := by omega
  have houtside : 0 < 2 ∧ s.sp.toNat - 2 + 2 > 4096 := by omega
  exact (if_neg hnonempty).trans (if_pos houtside)

/-! ## The stack slot after a push and a pop (R54) -/

theorem push16_sp_toNat (w : Word) {s : State} (h : s.sp.toNat + 2 ≤ 0x200) :
    (push16 w s).sp.toNat = s.sp.toNat + 2 := by
  rw [push16_sp]
  bv_omega

theorem read_push16_low (w : Word) {s : State} (hwf : s.mem.wf = true) (h : s.sp.toNat + 2 ≤ 0x200) :
    (push16 w s).mem.read s.sp.toNat = lowByte w := by
  rw [push16_mem, Memory.read_write_other _ _ _ _ (by omega), Memory.read_write_same _ _ _ hwf (by omega)]

theorem read_push16_high (w : Word) {s : State} (hwf : s.mem.wf = true) (h : s.sp.toNat + 2 ≤ 0x200) :
    (push16 w s).mem.read (s.sp.toNat + 1) = highByte w := by
  rw [push16_mem, Memory.read_write_same _ _ _ (Memory.wf_write _ _ _ hwf) (by omega)]

theorem read_push16_other (w : Word) (s : State) {a : Nat} (hlow : a ≠ s.sp.toNat) (hhigh : a ≠ s.sp.toNat + 1) :
    (push16 w s).mem.read a = s.mem.read a := by
  rw [push16_mem, Memory.read_write_other _ _ _ _ hhigh, Memory.read_write_other _ _ _ _ hlow]

theorem pop16_sp_toNat {s : State} (h : 0x54 ≤ s.sp.toNat) : (pop16 s).2.sp.toNat = s.sp.toNat - 2 := by
  rw [pop16_sp]
  bv_omega

/-- The word popped lies in the two bytes below `SP`, the low byte at the lower address. -/
theorem pop16_word_toNat {s : State} (h : 0x54 ≤ s.sp.toNat) :
    (pop16 s).1.toNat = (s.mem.read (s.sp.toNat - 2)).toNat + 256 * (s.mem.read (s.sp.toNat - 1)).toNat := by
  have hlow : (s.sp - 2).toNat = s.sp.toNat - 2 := pop16_sp_toNat h
  have hhigh : s.sp.toNat - 2 + 1 = s.sp.toNat - 1 := by omega
  simp only [pop16, memRead, bigEndian_toNat, hlow, hhigh]
  omega

/-! ## Call and return (R103, R122) -/

/-- Settles O28, by what the push leaves at and outside its slot; a full stack faults before any write. -/
theorem callPushesTheReturnAddress : Obligations.CallPushesTheReturnAddress := by
  intro s nnn hwf
  constructor
  · intro hroom
    have hnone : boundsFault (.call nnn) s = none := (pushCheck_eq_none s).2 hroom
    refine ⟨effect (.call nnn) s, exec_of_no_boundsFault hnone, ?_, push16_sp_toNat s.pc hroom, ?_, ?_, fun a => ?_, rfl⟩
    · rw [effect, setPc_pc, BitVec.toNat_setWidth_of_le (by decide)]
    · rw [effect, setPc_mem, read_push16_low _ hwf hroom, lowByte_toNat]
    · rw [effect, setPc_mem, read_push16_high _ hwf hroom, highByte_toNat]
    · exact read_push16_other s.pc s
  · intro hfull
    exact exec_of_boundsFault (pushCheck_of_full hfull)

/-- Settles O29, by the word the pop reads and the two ways its check faults. -/
theorem returnPopsTheReturnAddress : Obligations.ReturnPopsTheReturnAddress := by
  intro s
  refine ⟨fun hbase hinside => ?_, fun hempty => ?_, fun houtside => ?_⟩
  · have hnone : boundsFault .ret s = none := (popCheck_eq_none s).2 ⟨hbase, hinside⟩
    exact ⟨effect .ret s, exec_of_no_boundsFault hnone, pop16_sp_toNat hbase, pop16_word_toNat hbase, rfl⟩
  · exact exec_of_boundsFault (popCheck_of_empty hempty)
  · exact exec_of_boundsFault (popCheck_of_outside houtside)

/-! ## The frame of memory (R51, R57) -/

/-- Only the call and the two stores write memory, each at the bytes `storesAt` names. -/
theorem read_effect (i : Instr) (s : State) (a : Nat) (h : i.storesAt s a = false) :
    (effect i s).mem.read a = s.mem.read a := by
  cases i
  case call nnn =>
    have hout := of_decide_eq_false h
    exact read_push16_other s.pc s (by omega) (by omega)
  case ldB x =>
    have hout := of_decide_eq_false h
    simp only [effAddr] at hout
    refine Memory.read_writeBytes_other (bcdDigits (readV s x)) s.mem (effAddr s 0) a ?_
    simp only [bcdDigits, effAddr, List.length_cons, List.length_nil]
    omega
  case storeRegs x =>
    have hout := of_decide_eq_false h
    simp only [effAddr] at hout
    exact storeUpTo_read_other (x.val + 1) s a (by omega)
  all_goals rfl

/-- Settles O48, by the frame of memory in the effect; a fault entry writes no memory. -/
theorem memoryWrittenOnlyWhereStored : Obligations.MemoryWrittenOnlyWhereStored := by
  intro i s
  refine exec_answers (fun c _ a _ => rfl) fun hnone a ha => ?_
  exact read_effect i s a (ha.resolve_right (absurd hnone))

/-! ## The fetch after a store (R53, R64) -/

theorem lowByte_eq_ofNat (w : Word) : lowByte w = BitVec.ofNat 8 (w.toNat % 256) := by
  rw [← lowByte_toNat, BitVec.ofNat_toNat, BitVec.setWidth_eq]

theorem highByte_eq_ofNat (w : Word) : highByte w = BitVec.ofNat 8 (w.toNat / 256) := by
  rw [← highByte_toNat, BitVec.ofNat_toNat, BitVec.setWidth_eq]

/-- A push stores the two bytes of the word over the old memory. -/
theorem read_push16 (w : Word) {s : State} (hwf : s.mem.wf = true) (h : s.sp.toNat + 2 ≤ 0x200) (c : Nat) :
    (push16 w s).mem.read c =
      storedOver s.mem s.sp.toNat [BitVec.ofNat 8 (w.toNat % 256), BitVec.ofNat 8 (w.toNat / 256)] c := by
  rw [push16_mem_eq_writeBytes, ← lowByte_eq_ofNat, ← highByte_eq_ofNat]
  exact Memory.read_writeBytes _ _ _ c hwf (by simp only [List.length_cons, List.length_nil]; omega)

/-- Where an instruction's effect is to store `bytes` from `a`, the next fetch reads the opcode over those bytes. -/
theorem exec_then_fetch {i : Instr} {s : State} {a : Nat} {bytes : List Byte} (hnone : boundsFault i s = none)
    (hpc : (effect i s).pc.toNat ≤ 4094) (hread : ∀ c, (effect i s).mem.read c = storedOver s.mem a bytes c) :
    ∃ t w, exec i s = .next t ∧ fetchOpcode (tick t) = some w ∧
      w.toNat = opcodeOver s.mem a bytes (effect i s).pc.toNat := by
  obtain ⟨w, hfetch, hw⟩ := fetchOpcode_toNat (effect i s) hpc
  refine ⟨effect i s, w, exec_of_no_boundsFault hnone, by rw [fetchOpcode_tick, hfetch], ?_⟩
  rw [hw, hread, hread, opcodeOver]

/-- Settles O60: each of the three effects stores the bytes listed, so the next fetch reads the opcode over them. -/
theorem storeIsSeenByTheNextFetch : Obligations.StoreIsSeenByTheNextFetch := by
  intro s hwf
  refine ⟨fun x hi hpc => ?_, fun x hi hpc => ?_, fun nnn hroom hnnn => ?_⟩
  · have hnone : boundsFault (.ldB x) s = none := (rangeCheck_eq_none _ _).2 (.inr (by simp only [effAddr]; omega))
    refine exec_then_fetch hnone hpc fun c => Memory.read_writeBytes _ _ _ c hwf ?_
    simp only [effAddr, bcdDigits, List.length_cons, List.length_nil]
    omega
  · have hnone : boundsFault (.storeRegs x) s = none := (rangeCheck_eq_none _ _).2 (.inr (by simp only [effAddr]; omega))
    exact exec_then_fetch hnone hpc (storeUpTo_read_all (x.val + 1) s hwf x.isLt (by omega))
  · have hnone : boundsFault (.call nnn) s = none := (pushCheck_eq_none s).2 hroom
    have hpc : (effect (.call nnn) s).pc.toNat = nnn.toNat := BitVec.toNat_setWidth_of_le (by decide)
    rw [← hpc] at hnnn ⊢
    exact exec_then_fetch hnone hnnn (read_push16 s.pc hwf hroom)

end Sys2Proof.Machine
end

section
/-! SUPPORT. The two round trips of the encoding: the fields of a packed word, what the decoder answers in each family, then
the round trips and the illegal words as numbers (spec/30_encoding.md R71, R72, R74, R79, R81). -/

namespace Sys2Proof

/-! ## The fields of a packed word (R72) -/

@[simp] theorem fieldOp_packNNN (op : Nat) (nnn : Addr12) : fieldOp (packNNN op nnn) = BitVec.ofNat 4 op := by
  have := nnn.isLt
  apply BitVec.eq_of_toNat_eq
  rw [fieldOp_toNat, packNNN, BitVec.toNat_ofNat, BitVec.toNat_ofNat]
  omega

@[simp] theorem fieldNNN_packNNN (op : Nat) (nnn : Addr12) : fieldNNN (packNNN op nnn) = nnn := by
  have := nnn.isLt
  apply BitVec.eq_of_toNat_eq
  rw [fieldNNN_toNat, packNNN, BitVec.toNat_ofNat]
  omega

@[simp] theorem fieldOp_packXNN (op : Nat) (x : Reg) (nn : Byte) : fieldOp (packXNN op x nn) = BitVec.ofNat 4 op := by
  have := nn.isLt
  apply BitVec.eq_of_toNat_eq
  rw [fieldOp_toNat, packXNN, BitVec.toNat_ofNat, BitVec.toNat_ofNat]
  omega

@[simp] theorem fieldX_packXNN (op : Nat) (x : Reg) (nn : Byte) : fieldX (packXNN op x nn) = x := by
  have := nn.isLt
  apply Fin.ext
  rw [fieldX_val, packXNN, BitVec.toNat_ofNat]
  omega

@[simp] theorem fieldNN_packXNN (op : Nat) (x : Reg) (nn : Byte) : fieldNN (packXNN op x nn) = nn := by
  apply BitVec.eq_of_toNat_eq
  rw [fieldNN_toNat, packXNN, BitVec.toNat_ofNat]
  omega

/-- The formats with two registers are those with one register and the byte `y * 16 + n`. -/
theorem packXYN_eq_packXNN (op : Nat) (x y : Reg) (n : Nibble) :
    packXYN op x y n = packXNN op x (BitVec.ofNat 8 (y.val * 16 + n.toNat)) := by
  have := n.isLt
  rw [packXYN, packXNN, BitVec.toNat_ofNat, Nat.mod_eq_of_lt (by omega), ← Nat.add_assoc]

@[simp] theorem fieldOp_packXYN (op : Nat) (x y : Reg) (n : Nibble) : fieldOp (packXYN op x y n) = BitVec.ofNat 4 op := by
  rw [packXYN_eq_packXNN, fieldOp_packXNN]

@[simp] theorem fieldX_packXYN (op : Nat) (x y : Reg) (n : Nibble) : fieldX (packXYN op x y n) = x := by
  rw [packXYN_eq_packXNN, fieldX_packXNN]

@[simp] theorem fieldY_packXYN (op : Nat) (x y : Reg) (n : Nibble) : fieldY (packXYN op x y n) = y := by
  have := n.isLt
  apply Fin.ext
  rw [fieldY_val, packXYN, BitVec.toNat_ofNat]
  omega

@[simp] theorem fieldN_packXYN (op : Nat) (x y : Reg) (n : Nibble) : fieldN (packXYN op x y n) = n := by
  apply BitVec.eq_of_toNat_eq
  rw [fieldN_toNat, packXYN, BitVec.toNat_ofNat]
  omega

/-! ## Which family decodes a word (R74) -/

theorem decodeWord_of_op0 {w : Word} (h : fieldOp w = 0x0) : decodeWord w = decode0 w := by simp [decodeWord, h]

theorem decodeWord_of_op8 {w : Word} (h : fieldOp w = 0x8) : decodeWord w = decode8 w := by simp [decodeWord, h]

theorem decodeWord_of_opE {w : Word} (h : fieldOp w = 0xE) : decodeWord w = decodeE w := by simp [decodeWord, h]

theorem decodeWord_of_opF {w : Word} (h : fieldOp w = 0xF) : decodeWord w = decodeF w := by simp [decodeWord, h]

/-- The dispatch nibbles with more than one row are 0, 8, 0xE and 0xF (R74). -/
theorem nibble_of_single_row : ∀ op : Nibble, op ≠ 0x0 → op ≠ 0x8 → op ≠ 0xE → op ≠ 0xF →
    op = 0x1 ∨ op = 0x2 ∨ op = 0x3 ∨ op = 0x4 ∨ op = 0x5 ∨ op = 0x6 ∨ op = 0x7 ∨ op = 0x9 ∨ op = 0xA ∨ op = 0xB ∨
      op = 0xC ∨ op = 0xD := by
  decide

/-- The twelve other dispatch nibbles name one row each, which is legal and holds every operand. -/
theorem decodeWord_of_single_row {w : Word} (h0 : fieldOp w ≠ 0x0) (h8 : fieldOp w ≠ 0x8) (hE : fieldOp w ≠ 0xE)
    (hF : fieldOp w ≠ 0xF) : (decodeWord w).wellFormed = true ∧ (decodeWord w).illegal = false := by
  rcases nibble_of_single_row _ h0 h8 hE hF with h | h | h | h | h | h | h | h | h | h | h | h <;>
    simp [decodeWord, h, Instr.wellFormed, Instr.illegal]

/-! ## What the four families answer (R76, R79) -/

theorem decode8_of_illegal {w : Word} (h : legalLow8 (fieldN w) = false) :
    decode8 w = .illegal8 (fieldX w) (fieldY w) (fieldN w) := by
  simp_all [legalLow8, decode8]

theorem decode8_wellFormed (w : Word) : (decode8 w).wellFormed = true := by
  unfold decode8
  split_ifs
  case neg => simp_all [Instr.wellFormed, legalLow8]
  all_goals rfl

theorem decode8_illegal (w : Word) : (decode8 w).illegal = !legalLow8 (fieldN w) := by
  unfold decode8
  split_ifs <;> simp_all [Instr.illegal, legalLow8]

theorem decodeE_of_illegal {w : Word} (h : legalLowE (fieldNN w) = false) :
    decodeE w = .illegalE (fieldX w) (fieldNN w) := by
  simp_all [legalLowE, decodeE]

theorem decodeE_wellFormed (w : Word) : (decodeE w).wellFormed = true := by
  unfold decodeE
  split_ifs
  case neg => simp_all [Instr.wellFormed, legalLowE]
  all_goals rfl

theorem decodeE_illegal (w : Word) : (decodeE w).illegal = !legalLowE (fieldNN w) := by
  unfold decodeE
  split_ifs <;> simp_all [Instr.illegal, legalLowE]

theorem decodeF_of_illegal {w : Word} (h : legalLowF (fieldNN w) = false) :
    decodeF w = .illegalF (fieldX w) (fieldNN w) := by
  simp_all [legalLowF, decodeF]

theorem decodeF_wellFormed (w : Word) : (decodeF w).wellFormed = true := by
  unfold decodeF
  split_ifs
  case neg => simp_all [Instr.wellFormed, legalLowF]
  all_goals rfl

theorem decodeF_illegal (w : Word) : (decodeF w).illegal = !legalLowF (fieldNN w) := by
  unfold decodeF
  split_ifs <;> simp_all [Instr.illegal, legalLowF]

/-- In a `0x0` word the twelve bits of `SCD`'s row are the dispatch nibble and the high byte of `nnn`. -/
theorem extract_packNNN_zero (nnn : Addr12) :
    (packNNN 0x0 nnn).extractLsb' 4 12 = 0x00C#12 ↔ nnn.extractLsb' 4 8 = 0x0C#8 := by
  have := nnn.isLt
  simp only [← BitVec.toNat_inj, BitVec.extractLsb'_toNat, packNNN_toNat 0 nnn (by decide), Nat.shiftRight_eq_div_pow,
    BitVec.toNat_ofNat]
  omega

/-- A `0x0` word is its `nnn`. -/
theorem packNNN_zero_eq_iff (nnn : Addr12) {k : Nat} (hk : k < 4096) :
    packNNN 0x0 nnn = BitVec.ofNat 16 k ↔ nnn = BitVec.ofNat 12 k := by
  simp only [← BitVec.toNat_inj, packNNN_toNat 0 nnn (by decide), BitVec.toNat_ofNat]
  omega

theorem decode0_packNNN_of_not_taken {nnn : Addr12} (h : takenInFamily0 nnn = false) :
    decode0 (packNNN 0x0 nnn) = .sys nnn := by
  simp_all [takenInFamily0, decode0, extract_packNNN_zero, packNNN_zero_eq_iff]

theorem decode0_packNNN_wellFormed (nnn : Addr12) : (decode0 (packNNN 0x0 nnn)).wellFormed = true := by
  unfold decode0
  split_ifs
  case neg => simp_all [Instr.wellFormed, takenInFamily0, extract_packNNN_zero, packNNN_zero_eq_iff]
  all_goals rfl

theorem decode0_wellFormed {w : Word} (h : fieldOp w = 0x0) : (decode0 w).wellFormed = true := by
  have hw : packNNN 0x0 (fieldNNN w) = w := packNNN_fields (congrArg BitVec.toNat h)
  rw [← hw]
  exact decode0_packNNN_wellFormed _

theorem decode0_illegal (w : Word) : (decode0 w).illegal = false := by
  unfold decode0
  split_ifs <;> rfl

/-! ## The round trips (R74, R81) -/

/-- The decoder answers well-formed instructions only (R74): a catch-all row holds what the rows before it leave. -/
theorem decodeWord_wellFormed (w : Word) : (decodeWord w).wellFormed = true := by
  by_cases h0 : fieldOp w = 0x0
  · rw [decodeWord_of_op0 h0]
    exact decode0_wellFormed h0
  by_cases h8 : fieldOp w = 0x8
  · rw [decodeWord_of_op8 h8]
    exact decode8_wellFormed w
  by_cases hE : fieldOp w = 0xE
  · rw [decodeWord_of_opE hE]
    exact decodeE_wellFormed w
  by_cases hF : fieldOp w = 0xF
  · rw [decodeWord_of_opF hF]
    exact decodeF_wellFormed w
  exact (decodeWord_of_single_row h0 h8 hE hF).1

/-- Decoding the packed fields of a row gives the row; a catch-all row is reached because its operand is not taken. -/
theorem decodeWord_encode {i : Instr} (hwf : i.wellFormed = true) : decodeWord (encode i) = i := by
  cases i
  case sys nnn =>
    have htaken : takenInFamily0 nnn = false := by simpa [Instr.wellFormed] using hwf
    rw [encode, decodeWord_of_op0 (fieldOp_packNNN _ _), decode0_packNNN_of_not_taken htaken]
  case illegal8 x y n =>
    have hlow : legalLow8 n = false := by simpa [Instr.wellFormed] using hwf
    rw [encode, decodeWord_of_op8 (fieldOp_packXYN _ _ _ _), decode8_of_illegal] <;> simp [hlow]
  case illegalE x nn =>
    have hlow : legalLowE nn = false := by simpa [Instr.wellFormed] using hwf
    rw [encode, decodeWord_of_opE (fieldOp_packXNN _ _ _), decodeE_of_illegal] <;> simp [hlow]
  case illegalF x nn =>
    have hlow : legalLowF nn = false := by simpa [Instr.wellFormed] using hwf
    rw [encode, decodeWord_of_opF (fieldOp_packXNN _ _ _), decodeF_of_illegal] <;> simp [hlow]
  case scd n =>
    revert n
    decide
  case cls | ret | scr | scl | exit | low | high => rfl
  case ldReg | orReg | andReg | xorReg | addReg | subReg | shrReg | subnReg | shlReg =>
    rw [encode, decodeWord_of_op8 (fieldOp_packXYN _ _ _ _)]
    simp [decode8]
  case skp | sknp =>
    rw [encode, decodeWord_of_opE (fieldOp_packXNN _ _ _)]
    simp [decodeE]
  case ldVxDt | ldVxK | ldDtVx | ldStVx | addI | ldF | ldB | storeRegs | loadRegs =>
    rw [encode, decodeWord_of_opF (fieldOp_packXNN _ _ _)]
    simp [decodeF]
  all_goals simp [encode, decodeWord]

/-- Settles O1, by `decodeWord_encode`. -/
theorem decodeOfEncodeIsTheInstruction : Obligations.DecodeOfEncodeIsTheInstruction := fun _ => decodeWord_encode

/-- Settles O2, by what the decoder answers being well-formed and encoding to the word. -/
theorem encodeOfDecodeIsTheWord : Obligations.EncodeOfDecodeIsTheWord :=
  fun w => ⟨decodeWord_wellFormed w, encode_decodeWord w⟩

/-! ## The illegal words (R79) -/

/-- The illegal words by their fields (R79). -/
theorem decodeWord_illegal_iff (w : Word) : (decodeWord w).illegal = true ↔
    (fieldOp w = 0x8 ∧ legalLow8 (fieldN w) = false) ∨ (fieldOp w = 0xE ∧ legalLowE (fieldNN w) = false) ∨
      (fieldOp w = 0xF ∧ legalLowF (fieldNN w) = false) := by
  by_cases h0 : fieldOp w = 0x0
  · simp [decodeWord_of_op0 h0, decode0_illegal, h0]
  by_cases h8 : fieldOp w = 0x8
  · simp [decodeWord_of_op8 h8, decode8_illegal, h8]
  by_cases hE : fieldOp w = 0xE
  · simp [decodeWord_of_opE hE, decodeE_illegal, hE]
  by_cases hF : fieldOp w = 0xF
  · simp [decodeWord_of_opF hF, decodeF_illegal, hF]
  simp_all [decodeWord_of_single_row h0 h8 hE hF]

theorem legalLow8_eq_false_iff : ∀ n : Nibble,
    legalLow8 n = false ↔ n.toNat ∈ [0x8, 0x9, 0xA, 0xB, 0xC, 0xD, 0xF] := by
  decide

theorem legalLowE_eq_false_iff (nn : Byte) : legalLowE nn = false ↔ nn.toNat ∉ [0x9E, 0xA1] := by
  simp [legalLowE, ← BitVec.toNat_inj]

theorem legalLowF_eq_false_iff (nn : Byte) :
    legalLowF nn = false ↔ nn.toNat ∉ [0x07, 0x0A, 0x15, 0x18, 0x1E, 0x29, 0x33, 0x55, 0x65] := by
  simp [legalLowF, ← BitVec.toNat_inj, and_assoc]

theorem fieldOp_eq_iff (w : Word) (op : Nibble) : fieldOp w = op ↔ w.toNat / 4096 = op.toNat := by
  rw [← BitVec.toNat_inj, fieldOp_toNat]

/-- Settles O4, by the illegal words in terms of their fields, read as numbers. -/
theorem illegalWordsAreThoseOfTheThreeFamilies : Obligations.IllegalWordsAreThoseOfTheThreeFamilies := by
  intro w
  rw [decodeWord_illegal_iff, legalLow8_eq_false_iff, legalLowE_eq_false_iff, legalLowF_eq_false_iff, fieldOp_eq_iff,
    fieldOp_eq_iff, fieldOp_eq_iff, fieldN_toNat, fieldNN_toNat]
  rfl

/-- Settles O5, by evaluating the decoder on the twelve words. -/
theorem workedWordsDecodeAsTheSpecSays : Obligations.WorkedWordsDecodeAsTheSpecSays := by
  unfold Obligations.WorkedWordsDecodeAsTheSpecSays
  decide

end Sys2Proof
end

section
/-! SUPPORT. The opcode map as data: an instruction's word matches its own row, and two rows that one word matches are a
catch-all and a row of its family, so the first match is the decoder's row (spec/30_encoding.md R74, R75). -/

namespace Sys2Proof

/-! ## Positions in the map -/

/-- The row at a position of the opcode map. -/
def rowAt (k : Nat) : OpcodeRow := opcodeMap.getD k ⟨0, 0⟩

theorem getElem_opcodeMap {k : Nat} (hk : k < opcodeMap.length) : opcodeMap[k] = rowAt k := List.getElem_eq_getD _

theorem firstMatch_eq_some {w : Word} {k : Nat} (hk : k < opcodeMap.length) (hrow : (rowAt k).holds w = true)
    (hbefore : ∀ j < k, (rowAt j).holds w = false) : firstMatch w = some k := by
  refine List.findIdx?_eq_some_iff_getElem.2 ⟨hk, ?_, fun j hj => ?_⟩
  · rwa [getElem_opcodeMap]
  · rw [getElem_opcodeMap, hbefore j hj]
    decide

theorem opcodeMap_length : opcodeMap.length = 44 := rfl

theorem rowIndex_lt (i : Instr) : i.rowIndex < opcodeMap.length := by
  cases i <;> simp [Instr.rowIndex, opcodeMap_length]

open Laws.RowMatch in
/-- The word of an instruction matches its row. -/
theorem row_holds_encode (i : Instr) : (rowAt i.rowIndex).holds (encode i) = true := by
  cases i
  exacts [scd _, cls, ret, scr, scl, exit, low, high, sys _, jp _, call _, seImm _ _, sneImm _ _, seReg _ _ _,
    ldImm _ _, addImm _ _, ldReg _ _, orReg _ _, andReg _ _, xorReg _ _, addReg _ _, subReg _ _, shrReg _ _,
    subnReg _ _, shlReg _ _, sneReg _ _ _, ldI _, jpV0 _, rnd _ _, drw _ _ _, skp _, sknp _, ldVxDt _, ldVxK _,
    ldDtVx _, ldStVx _, addI _, ldF _, ldB _, storeRegs _, loadRegs _, illegal8 _ _ _, illegalE _ _, illegalF _ _]

/-! ## Rows that one word can match -/

/-- Two rows overlap when the bits both of them fix agree. -/
def OpcodeRow.overlaps (r q : OpcodeRow) : Bool := r.pattern &&& q.mask == q.pattern &&& r.mask

/-- Rows that one word matches overlap. -/
theorem OpcodeRow.overlaps_of_holds {r q : OpcodeRow} {w : Word} (hr : r.holds w = true) (hq : q.holds w = true) :
    r.overlaps q = true := by
  simp only [holds, overlaps, beq_iff_eq] at hr hq ⊢
  rw [← hr, ← hq, BitVec.and_assoc, BitVec.and_assoc, BitVec.and_comm r.mask]

/-- Bits that a row fixes are the row's in every word that matches it. -/
theorem OpcodeRow.extract_of_holds {r : OpcodeRow} {w : Word} {start len : Nat}
    (hmask : r.mask.extractLsb' start len = BitVec.allOnes len) (h : r.holds w = true) :
    w.extractLsb' start len = r.pattern.extractLsb' start len := by
  rw [← beq_iff_eq.1 h, BitVec.extractLsb'_and, hmask, BitVec.and_allOnes]

/-- A row that overlaps an earlier one is a catch-all, and the earlier one fixes an operand that the catch-all leaves out
(checked on every pair of the 44 rows). -/
theorem overlap_of_rows : ∀ k j : Fin 44, j < k → (rowAt j).overlaps (rowAt k) = true →
    (k = 8 ∧ (j = 0 ∨ fieldNNN (rowAt j).mask = BitVec.allOnes 12 ∧ takenInFamily0 (fieldNNN (rowAt j).pattern) = true)) ∨
      (k = 41 ∧ fieldN (rowAt j).mask = BitVec.allOnes 4 ∧ legalLow8 (fieldN (rowAt j).pattern) = true) ∨
      (k = 42 ∧ fieldNN (rowAt j).mask = BitVec.allOnes 8 ∧ legalLowE (fieldNN (rowAt j).pattern) = true) ∨
      (k = 43 ∧ fieldNN (rowAt j).mask = BitVec.allOnes 8 ∧ legalLowF (fieldNN (rowAt j).pattern) = true) := by
  decide

theorem takenInFamily0_of_scd_row {nnn : Addr12} (h : (rowAt 0).holds (packNNN 0x0 nnn) = true) :
    takenInFamily0 nnn = true := by
  have hscd : (packNNN 0x0 nnn).extractLsb' 4 12 = 0x00C#12 := OpcodeRow.extract_of_holds rfl h
  simp [takenInFamily0, (extract_packNNN_zero nnn).1 hscd]

/-- The rows before its own do not match the word of a well-formed instruction. -/
theorem earlier_row_not_holds {i : Instr} (hwf : i.wellFormed = true) :
    ∀ j < i.rowIndex, (rowAt j).holds (encode i) = false := by
  intro j hj
  by_contra hne
  have hrow : (rowAt j).holds (encode i) = true := eq_true_of_ne_false hne
  have hover := overlap_of_rows ⟨i.rowIndex, rowIndex_lt i⟩ ⟨j, hj.trans (rowIndex_lt i)⟩ hj
    (OpcodeRow.overlaps_of_holds hrow (row_holds_encode i))
  simp only [Fin.ext_iff] at hover
  cases i
  case sys nnn =>
    obtain rfl | ⟨hmask, htaken⟩ : j = 0 ∨ fieldNNN (rowAt j).mask = BitVec.allOnes 12 ∧
        takenInFamily0 (fieldNNN (rowAt j).pattern) = true := by simpa [Instr.rowIndex] using hover
    · simp [Instr.wellFormed, takenInFamily0_of_scd_row hrow] at hwf
    · have hop : nnn = fieldNNN (rowAt j).pattern :=
        (fieldNNN_packNNN 0x0 nnn).symm.trans (OpcodeRow.extract_of_holds hmask hrow)
      simp [Instr.wellFormed, hop, htaken] at hwf
  case illegal8 x y n =>
    obtain ⟨hmask, hlegal⟩ : fieldN (rowAt j).mask = BitVec.allOnes 4 ∧
        legalLow8 (fieldN (rowAt j).pattern) = true := by simpa [Instr.rowIndex] using hover
    have hop : n = fieldN (rowAt j).pattern :=
      (fieldN_packXYN 0x8 x y n).symm.trans (OpcodeRow.extract_of_holds hmask hrow)
    simp [Instr.wellFormed, hop, hlegal] at hwf
  case illegalE x nn =>
    obtain ⟨hmask, hlegal⟩ : fieldNN (rowAt j).mask = BitVec.allOnes 8 ∧
        legalLowE (fieldNN (rowAt j).pattern) = true := by simpa [Instr.rowIndex] using hover
    have hop : nn = fieldNN (rowAt j).pattern :=
      (fieldNN_packXNN 0xE x nn).symm.trans (OpcodeRow.extract_of_holds hmask hrow)
    simp [Instr.wellFormed, hop, hlegal] at hwf
  case illegalF x nn =>
    obtain ⟨hmask, hlegal⟩ : fieldNN (rowAt j).mask = BitVec.allOnes 8 ∧
        legalLowF (fieldNN (rowAt j).pattern) = true := by simpa [Instr.rowIndex] using hover
    have hop : nn = fieldNN (rowAt j).pattern :=
      (fieldNN_packXNN 0xF x nn).symm.trans (OpcodeRow.extract_of_holds hmask hrow)
    simp [Instr.wellFormed, hop, hlegal] at hwf
  all_goals simp [Instr.rowIndex] at hover

/-- Settles O3: the word matches its own row, and no earlier one, as the decoded instruction is well-formed. -/
theorem decoderTakesTheFirstMatchingRow : Obligations.DecoderTakesTheFirstMatchingRow := by
  intro w
  have hrow := row_holds_encode (decodeWord w)
  have hbefore := earlier_row_not_holds (decodeWord_wellFormed w)
  rw [encode_decodeWord] at hrow hbefore
  exact firstMatch_eq_some (rowIndex_lt _) hrow hbefore

end Sys2Proof
end

section
/-! SUPPORT. The system and display control instructions: the clear and the three scrolls of the grid, a return right after
its call, and the instructions that only halt or do nothing (spec/40_system_display_control.md R102 to R110). -/

namespace Sys2Proof.Machine

/-! ## The clear and the scrolls, pixel by pixel (R102, R107) -/

theorem px_clear (c r : Nat) (hc : c < 64) (hr : r < 32) : Display.clear.px c r = false :=
  Display.px_build _ c r hc hr

theorem px_scrollRight (d : Display) (k c r : Nat) (hc : c < 64) (hr : r < 32) :
    (d.scrollRight k).px c r = if k ≤ c then d.px (c - k) r else false :=
  Display.px_build _ c r hc hr

theorem px_scrollLeft (d : Display) (k c r : Nat) (hc : c < 64) (hr : r < 32) :
    (d.scrollLeft k).px c r = if c + k ≤ 63 then d.px (c + k) r else false :=
  Display.px_build _ c r hc hr

/-! ## The amounts that move nothing or everything (R107) -/

theorem scrollDown_zero (d : Display) : d.scrollDown 0 = d :=
  Display.ext_px _ _ fun c r hc hr => (px_scrollDown d 0 c r hc hr).trans (if_pos (Nat.zero_le r))

theorem eq_clear_of_px {d : Display} (h : ∀ c r, c < 64 → r < 32 → d.px c r = false) : d = Display.clear :=
  Display.ext_px _ _ fun c r hc hr => (h c r hc hr).trans (px_clear c r hc hr).symm

theorem scrollDown_eq_clear (d : Display) {k : Nat} (hk : 32 ≤ k) : d.scrollDown k = Display.clear :=
  eq_clear_of_px fun c r hc hr => (px_scrollDown d k c r hc hr).trans (if_neg (by omega))

theorem scrollRight_eq_clear (d : Display) {k : Nat} (hk : 64 ≤ k) : d.scrollRight k = Display.clear :=
  eq_clear_of_px fun c r hc hr => (px_scrollRight d k c r hc hr).trans (if_neg (by omega))

theorem scrollLeft_eq_clear (d : Display) {k : Nat} (hk : 64 ≤ k) : d.scrollLeft k = Display.clear :=
  eq_clear_of_px fun c r hc hr => (px_scrollLeft d k c r hc hr).trans (if_neg (by omega))

/-- Settles O40, by the pixels of each scrolled grid: a large amount leaves no pixel with an old one behind it. -/
theorem scrollFunctions : Obligations.ScrollFunctions :=
  fun d k => ⟨px_scrollDown d k, px_scrollRight d k, px_scrollLeft d k, scrollDown_zero d, scrollDown_eq_clear d,
    fun hk => ⟨scrollRight_eq_clear d hk, scrollLeft_eq_clear d hk⟩⟩

/-- Settles O38: each effect paints one grid, whose pixels are those of the clear or of a scroll by 4. -/
theorem clearAndHorizontalScrolls : Obligations.ClearAndHorizontalScrolls :=
  fun s => ⟨⟨effect .cls s, exec_of_no_boundsFault rfl, px_clear, rfl⟩,
    ⟨effect .scr s, exec_of_no_boundsFault rfl, px_scrollRight s.px 4, rfl⟩,
    ⟨effect .scl s, exec_of_no_boundsFault rfl, px_scrollLeft s.px 4, rfl⟩⟩

/-! ## A return right after its call (R103, R122, R129) -/

/-- A pop right after a push gives the word back and leaves the bytes of the slot in memory. -/
theorem pop16_push16 (w : Word) {s : State} (hwf : s.mem.wf = true) (hroom : s.sp.toNat + 2 ≤ 0x200) :
    pop16 (push16 w s) = (w, { s with mem := (push16 w s).mem }) := by
  have hsp : (push16 w s).sp - 2 = s.sp := by rw [push16_sp, BitVec.add_sub_cancel]
  have hword : (pop16 (push16 w s)).1 = w := by
    simp only [pop16, memRead, hsp]
    rw [read_push16_low w hwf hroom, read_push16_high w hwf hroom, bigEndian_highByte_lowByte]
  have hstate : (pop16 (push16 w s)).2 = { s with mem := (push16 w s).mem } := by
    simp only [pop16, hsp]
    rfl
  exact Prod.ext hword hstate

/-- A pop neither reads nor writes `PC`. -/
theorem pop16_setPc (a : Word) (s : State) : pop16 (setPc a s) = ((pop16 s).1, setPc a (pop16 s).2) := rfl

theorem effect_ret_effect_call (nnn : Addr12) {s : State} (hwf : s.mem.wf = true) (hroom : s.sp.toNat + 2 ≤ 0x200) :
    effect .ret (effect (.call nnn) s) = { s with mem := (push16 s.pc s).mem } := by
  rw [effect, effect, pop16_setPc, pop16_push16 s.pc hwf hroom]
  rfl

/-- Settles O30: neither check faults, and the pop of the return undoes the push of the call but for the slot's bytes. -/
theorem callThenReturnRestores : Obligations.CallThenReturnRestores := by
  intro s nnn hwf hbase hroom
  have hcall : boundsFault (.call nnn) s = none := (pushCheck_eq_none s).2 hroom
  have hret : boundsFault .ret (effect (.call nnn) s) = none := by
    have hsp : (effect (.call nnn) s).sp.toNat = s.sp.toNat + 2 := push16_sp_toNat s.pc hroom
    exact (popCheck_eq_none _).2 (by omega)
  refine ⟨effect (.call nnn) s, { s with mem := (push16 s.pc s).mem }, exec_of_no_boundsFault hcall, ?_, rfl,
    fun a => read_push16_other s.pc s⟩
  rw [exec_of_no_boundsFault hret, effect_ret_effect_call nnn hwf hroom]

/-! ## `EXIT` and the inert words (R106, R108 to R110) -/

theorem countDown_toNat (t : Byte) : (countDown t).toNat = t.toNat - 1 := by
  unfold countDown
  split
  case isTrue hzero => rw [hzero]; rfl
  case isFalse hpos => bv_omega

theorem tick_beep_toNat (s : State) : (tick s).beep = decide (s.st.toNat = 1) := by
  rw [tick_beep, beq_eq_decide, decide_eq_decide]
  exact BitVec.toNat_inj.symm

/-- The cycle that fetches `EXIT` halts the core, then ticks (D11). -/
theorem step_of_exit {s : State} (hrun : s.run = true) (hfetch : fetchOpcode s = some 0x00FD) :
    step s = .next (tick (halt (advance s))) := by
  have hdecode : decodeWord 0x00FD = .exit := by decide
  rw [step_of_no_boundsFault hrun hfetch (by rw [hdecode]; rfl), hdecode]
  rfl

/-- Settles O41: the cycle of `EXIT` is the halt of the advanced state, then the tick. -/
theorem exitHaltsAfterTheTick : Obligations.ExitHaltsAfterTheTick := by
  refine ⟨fun s => exec_of_no_boundsFault rfl, fun s hrun hfetch => ?_⟩
  refine ⟨tick (halt (advance s)), step_of_exit hrun hfetch, countDown_toNat s.dt, countDown_toNat s.st, ?_⟩
  have hbeep : (tick (halt (advance s))).beep = decide (s.st.toNat = 1) := tick_beep_toNat _
  rw [← hbeep]
  rfl

/-- Settles O42: none of the three raises a BoundsError, and the effect of each is the state itself. -/
theorem inertSystemWordsChangeNothing : Obligations.InertSystemWordsChangeNothing :=
  fun _ _ => ⟨exec_of_no_boundsFault rfl, exec_of_no_boundsFault rfl, exec_of_no_boundsFault rfl⟩

end Sys2Proof.Machine
end

section
/-! SUPPORT. The two jumps: the addresses they transfer to, read as numbers (spec/41_jump_call_skip.md R121, R127). -/

namespace Sys2Proof.Machine

theorem effect_jp_pc_toNat (nnn : Addr12) (s : State) : (effect (.jp nnn) s).pc.toNat = nnn.toNat :=
  BitVec.toNat_setWidth_of_le (by decide)

/-- The offsets are added to the already advanced `PC`, and the 16-bit sum wraps once for both (R127). -/
theorem effect_jpV0_pc_toNat (nnn : Addr12) (s : State) :
    (effect (.jpV0 nnn) s).pc.toNat = (s.pc.toNat + (readV s 0).toNat + nnn.toNat) % 65536 := by
  have hreg : ((readV s 0).setWidth 16).toNat = (readV s 0).toNat := BitVec.toNat_setWidth_of_le (by decide)
  have haddr : (nnn.setWidth 16).toNat = nnn.toNat := BitVec.toNat_setWidth_of_le (by decide)
  rw [effect, setPc_pc, BitVec.toNat_add, BitVec.toNat_add, hreg, haddr, Nat.mod_add_mod]

/-- Settles O26: neither jump raises a BoundsError, and the effect of each sets only `PC`. -/
theorem jumpsReplaceOrAddToThePc : Obligations.JumpsReplaceOrAddToThePc :=
  fun s nnn => ⟨⟨effect (.jp nnn) s, exec_of_no_boundsFault rfl, effect_jp_pc_toNat nnn s, rfl⟩,
    ⟨effect (.jpV0 nnn) s, exec_of_no_boundsFault rfl, effect_jpV0_pc_toNat nnn s, rfl⟩⟩

end Sys2Proof.Machine
end

section
/-! SUPPORT. The two register-immediate instructions: the one register they write, and the sum in it read as a number
(spec/42_register_immediate.md R140 to R142). -/

namespace Sys2Proof.Machine

/-- The sum wraps at a byte, and the operand register is the destination (R142). -/
theorem readV_effect_addImm_toNat (x : Reg) (nn : Byte) (s : State) :
    (readV (effect (.addImm x nn) s) x).toNat = ((readV s x).toNat + nn.toNat) % 256 := by
  rw [effect, readV_writeV_same, BitVec.toNat_add]

/-- The second instruction reads the byte that the first one wrote. -/
theorem readV_effect_addImm_effect_ldImm_toNat (x : Reg) (m nn : Byte) (s : State) :
    (readV (effect (.addImm x nn) (effect (.ldImm x m) s)) x).toNat = (m.toNat + nn.toNat) % 256 := by
  have hload : readV (effect (.ldImm x m) s) x = m := readV_writeV_same x m s
  rw [readV_effect_addImm_toNat, hload]

/-- Settles O17: no BoundsError, and the effect is one write to `V[x]`. -/
theorem loadImmediateWritesTheByte : Obligations.LoadImmediateWritesTheByte :=
  fun s x nn => ⟨effect (.ldImm x nn) s, exec_of_no_boundsFault rfl, readV_writeV_same x nn s,
    fun r hr => readV_writeV_other x r nn s hr, rfl⟩

/-- Settles O18: no BoundsError, the effect is one write of the wrapped sum to `V[x]`, and the sum reads what 6XNN left
there. -/
theorem addImmediateAddsModulo256 : Obligations.AddImmediateAddsModulo256 := by
  intro s x nn
  constructor
  · exact ⟨effect (.addImm x nn) s, exec_of_no_boundsFault rfl, readV_effect_addImm_toNat x nn s,
      fun r hr => readV_writeV_other x r _ s hr, rfl⟩
  · intro m
    exact ⟨effect (.ldImm x m) s, effect (.addImm x nn) (effect (.ldImm x m) s), exec_of_no_boundsFault rfl,
      exec_of_no_boundsFault rfl, readV_effect_addImm_effect_ldImm_toNat x m nn s⟩

end Sys2Proof.Machine
end

section
/-! SUPPORT. The two-register instructions that move, combine, add or subtract in reverse: the registers after one write, and
after a write and the flag that follows it; then the illegal words (spec/43_alu.md R151 to R155, R158, R160,
spec/60_exceptions.md R203). -/

namespace Sys2Proof.Machine

/-! ## One register write (R151 to R154) -/

/-- A register write keeps every other register and all other state. -/
theorem writeV_frame (x : Reg) (b : Byte) (s : State) :
    (∀ r, r ≠ x → readV (writeV x b s) r = readV s r) ∧ writeV x b s = { s with v := (writeV x b s).v } :=
  ⟨fun r hr => readV_writeV_other x r b s hr, rfl⟩

theorem readV_effect_orReg (x y : Reg) (s : State) :
    readV (effect (.orReg x y) s) x = readV s x ||| readV s y := readV_writeV_same x _ s

theorem readV_effect_andReg (x y : Reg) (s : State) :
    readV (effect (.andReg x y) s) x = readV s x &&& readV s y := readV_writeV_same x _ s

theorem readV_effect_xorReg (x y : Reg) (s : State) :
    readV (effect (.xorReg x y) s) x = readV s x ^^^ readV s y := readV_writeV_same x _ s

/-- Settles O20: no BoundsError, and each effect is one write to `V[x]`, whose bits are those of the two old registers. -/
theorem moveAndLogicActBitwise : Obligations.MoveAndLogicActBitwise := by
  intro s x y
  refine ⟨⟨effect (.ldReg x y) s, exec_of_no_boundsFault rfl, readV_writeV_same x _ s, writeV_frame x _ s⟩,
    ⟨effect (.orReg x y) s, exec_of_no_boundsFault rfl, fun k => ?_, writeV_frame x _ s⟩,
    ⟨effect (.andReg x y) s, exec_of_no_boundsFault rfl, fun k => ?_, writeV_frame x _ s⟩,
    ⟨effect (.xorReg x y) s, exec_of_no_boundsFault rfl, fun k => ?_, writeV_frame x _ s⟩⟩
  · rw [readV_effect_orReg, BitVec.getLsbD_or]
  · rw [readV_effect_andReg, BitVec.getLsbD_and]
  · rw [readV_effect_xorReg, BitVec.getLsbD_xor]

/-! ## A register write, then the flag (R155, R158) -/

/-- The flag is written last, so `VF` holds it also where `x` is 15. -/
theorem readV_writeFlag_VF (f : Bool) (s : State) : readV (writeFlag f s) VF = flagByte f :=
  readV_writeV_same VF (flagByte f) s

theorem readV_writeFlag_writeV_same {x : Reg} (hx : x ≠ VF) (b : Byte) (f : Bool) (s : State) :
    readV (writeFlag f (writeV x b s)) x = b := by
  rw [readV_writeFlag, if_neg hx, readV_writeV_same]

/-- A register write and the flag after it keep every other register and all other state. -/
theorem writeFlag_writeV_frame (x : Reg) (b : Byte) (f : Bool) (s : State) :
    (∀ r, r ≠ x → r ≠ VF → readV (writeFlag f (writeV x b s)) r = readV s r) ∧
      writeFlag f (writeV x b s) = { s with v := (writeFlag f (writeV x b s)).v } := by
  refine ⟨fun r hrx hrf => ?_, rfl⟩
  rw [readV_writeFlag, if_neg hrf, readV_writeV_other x r b s hrx]

theorem carryFlag_toNat (a b : Byte) :
    (flagByte (carryFlag a b)).toNat = if a.toNat + b.toNat > 255 then 1 else 0 := by
  simp [flagByte_toNat, carryFlag]

/-- The no-borrow flag by the borrow: 0 where the minuend is below the subtrahend (R158). -/
theorem noBorrowFlag_toNat_of_borrow (a b : Byte) :
    (flagByte (noBorrowFlag a b)).toNat = if a.toNat < b.toNat then 0 else 1 := by
  rw [noBorrowFlag_toNat, ← ite_not]
  simp only [ge_iff_le, Nat.not_le]

/-- The difference wraps at a byte. -/
theorem byte_sub_toNat (a b : Byte) : (a - b).toNat = (a.toNat + 256 - b.toNat) % 256 := by
  rw [BitVec.toNat_sub]
  omega

/-- Settles O21: no BoundsError, and the effect writes the sum and then the carry, both of the old registers. -/
theorem addWritesSumThenCarry : Obligations.AddWritesSumThenCarry := by
  intro s x y
  refine ⟨effect (.addReg x y) s, exec_of_no_boundsFault rfl, ?_, fun hx => ?_, writeFlag_writeV_frame x _ _ s⟩
  · rw [effect, readV_writeFlag_VF, carryFlag_toNat]
  · rw [effect, readV_writeFlag_writeV_same hx, BitVec.toNat_add]

/-- Settles O23: no BoundsError, and the effect writes the difference and then the flag, both of the old registers. -/
theorem subtractReversedWritesDifferenceThenFlag : Obligations.SubtractReversedWritesDifferenceThenFlag := by
  intro s x y
  refine ⟨effect (.subnReg x y) s, exec_of_no_boundsFault rfl, ?_, fun hx => ?_, writeFlag_writeV_frame x _ _ s⟩
  · rw [effect, readV_writeFlag_VF, noBorrowFlag_toNat_of_borrow]
  · rw [effect, readV_writeFlag_writeV_same hx, byte_sub_toNat]

/-! ## The illegal words (R160, R199, R203) -/

/-- An illegal row is checked for no BoundsError (R201). -/
theorem boundsFault_of_illegal {i : Instr} (h : i.illegal = true) (s : State) : boundsFault i s = none := by
  cases i
  case illegal8 | illegalE | illegalF => rfl
  all_goals cases h

theorem exec_of_illegal {i : Instr} (h : i.illegal = true) (s : State) : exec i s = .next (raiseDecode i s) := by
  rw [exec_of_no_boundsFault (boundsFault_of_illegal h s), effect_of_illegal i s h]

/-- Settles O46: each of the three rows raises its DecodeError, and the word it records is the packed operands. -/
theorem illegalWordsRaiseDecodeError : Obligations.IllegalWordsRaiseDecodeError :=
  fun s _ _ _ _ => ⟨exec_of_illegal rfl s, exec_of_illegal rfl s, exec_of_illegal rfl s⟩

end Sys2Proof.Machine
end

section
/-! SUPPORT. The address register and the memory transfers: when a transfer's check passes and faults, the word an `FXNN`
fault records, and what each transfer leaves at its addresses and registers (spec/44_index_memory.md R171 to R177). -/

namespace Sys2Proof.Machine

/-! ## The range check of a transfer from `I` (R52, R177) -/

theorem effAddr_zero (s : State) : effAddr s 0 = s.i.toNat := rfl

/-- A transfer whose last byte lies in memory passes its check. -/
theorem rangeCheck_effAddr_of_inside {s : State} {k : Nat} (h : s.i.toNat + k ≤ 4095) :
    rangeCheck (effAddr s 0) (k + 1) = none :=
  (rangeCheck_eq_none _ _).2 (.inr (by rw [effAddr_zero]; omega))

/-- A transfer whose last byte lies above memory faults. -/
theorem rangeCheck_effAddr_of_outside {s : State} {k : Nat} (h : s.i.toNat + k > 4095) :
    rangeCheck (effAddr s 0) (k + 1) = some .memRange := by
  refine (rangeCheck_cases _ _).resolve_left fun hnone => ?_
  rw [rangeCheck_eq_none, effAddr_zero] at hnone
  omega

/-- The register's place in the packed word comes after the constant part of the opcode. -/
theorem packXNN_eq_ofNat (op : Nat) (x : Reg) (nn : Byte) :
    packXNN op x nn = BitVec.ofNat 16 (op * 4096 + nn.toNat + x.val * 256) := by
  rw [packXNN, Nat.add_right_comm]

/-- The fault of a transfer whose opcode is `FXNN` records that opcode (R201). -/
theorem exec_of_memRange {i : Instr} {s : State} {x : Reg} {nn : Byte} (hword : encode i = packXNN 0xF x nn)
    (h : boundsFault i s = some .memRange) :
    exec i s = .next { s with run := false, fault := .memRange,
                              finfo := BitVec.ofNat 16 (0xF000 + nn.toNat + x.val * 256) } := by
  rw [exec_of_boundsFault h, hword, packXNN_eq_ofNat]
  rfl

/-! ## The decimal digits (R174) -/

/-- The digits are stored without loss: each fits a byte. -/
theorem bcdDigits_toNat (b : Byte) :
    (bcdDigits b).map BitVec.toNat = [b.toNat / 100, b.toNat / 10 % 10, b.toNat % 10] := by
  have hbyte := b.isLt
  have hhundreds : b.toNat / 100 < 256 := by omega
  have htens : b.toNat / 10 % 10 < 256 := by omega
  have hones : b.toNat % 10 < 256 := by omega
  simp only [bcdDigits, List.map_cons, List.map_nil, BitVec.toNat_ofNat, Nat.reducePow, Nat.mod_eq_of_lt hhundreds,
    Nat.mod_eq_of_lt htens, Nat.mod_eq_of_lt hones]

/-- The byte that LD B leaves at each of its three addresses, as a number. -/
theorem effect_ldB_read_toNat {s : State} (x : Reg) (hwf : s.mem.wf = true) (hi : s.i.toNat + 2 ≤ 4095) {k : Nat}
    (hk : k < 3) :
    ((effect (.ldB x) s).mem.read (effAddr s k)).toNat =
      [(readV s x).toNat / 100, (readV s x).toNat / 10 % 10, (readV s x).toNat % 10][k] := by
  have hroom : effAddr s 0 + (bcdDigits (readV s x)).length ≤ 4096 := by
    change s.i.toNat + 3 ≤ 4096
    omega
  have hread := Memory.read_writeBytes_inside (bcdDigits (readV s x)) s.mem (effAddr s 0) k hwf hk hroom
  simp only [← bcdDigits_toNat, List.getElem_map]
  exact congrArg BitVec.toNat hread

/-! ## The addresses outside a transfer -/

/-- An address below `I` or above `I + 2` is none that LD B stores to. -/
theorem storesAt_ldB_of_outside (x : Reg) {s : State} {a : Nat} (h : a < effAddr s 0 ∨ effAddr s 2 < a) :
    (Instr.ldB x).storesAt s a = false :=
  decide_eq_false (by simp only [effAddr] at h ⊢; omega)

/-- An address below `I` or above `I + x` is none that the register store stores to. -/
theorem storesAt_storeRegs_of_outside {x : Reg} {s : State} {a : Nat} (h : a < effAddr s 0 ∨ effAddr s x.val < a) :
    (Instr.storeRegs x).storesAt s a = false :=
  decide_eq_false (by omega)

/-! ## The statements -/

/-- Settles O33: the check passes, each address reads its digit, and a byte is the sum of its weighted digits. -/
theorem decimalDigitsAreStored : Obligations.DecimalDigitsAreStored := by
  intro s x hwf hi
  have hnone : boundsFault (.ldB x) s = none := rangeCheck_effAddr_of_inside hi
  have hhundreds := effect_ldB_read_toNat x hwf hi (k := 0) (by decide)
  have htens := effect_ldB_read_toNat x hwf hi (k := 1) (by decide)
  have hones := effect_ldB_read_toNat x hwf hi (k := 2) (by decide)
  refine ⟨effect (.ldB x) s, exec_of_no_boundsFault hnone, hhundreds, htens, hones, ?_, fun a ha => ?_, rfl⟩
  · rw [hhundreds, htens, hones]
    simp only [List.getElem_cons_zero, List.getElem_cons_succ]
    omega
  · exact read_effect _ s a (storesAt_ldB_of_outside x ha)

/-- Settles O34: the check passes, and the block store of `x + 1` registers puts each at its own address. -/
theorem registersAreStoredFromI : Obligations.RegistersAreStoredFromI := by
  intro s x hwf hi
  have hnone : boundsFault (.storeRegs x) s = none := rangeCheck_effAddr_of_inside hi
  refine ⟨effect (.storeRegs x) s, exec_of_no_boundsFault hnone, fun k hk => ?_, fun a ha => ?_, rfl⟩
  · exact storeUpTo_read (x.val + 1) s hwf x.isLt (by omega) k (Nat.lt_succ_of_le hk)
  · exact read_effect _ s a (storesAt_storeRegs_of_outside ha)

/-- Settles O35: the check passes, and the block load of `x + 1` registers reads the first `x + 1` from memory. -/
theorem registersAreLoadedFromI : Obligations.RegistersAreLoadedFromI := by
  intro s x hi
  have hnone : boundsFault (.loadRegs x) s = none := rangeCheck_effAddr_of_inside hi
  refine ⟨effect (.loadRegs x) s, exec_of_no_boundsFault hnone, fun k hk => ?_, fun k hk => ?_, rfl⟩
  · exact (loadUpTo_readV (x.val + 1) s x.isLt k).trans (if_pos (Nat.lt_succ_of_le hk))
  · exact readV_effect (.loadRegs x) s k (decide_eq_false (Fin.not_le.2 hk))

/-- Settles O13: each check faults, and the words recorded are `FX33`, `FX55` and `FX65`. -/
theorem transferOutsideMemoryFaults : Obligations.TransferOutsideMemoryFaults :=
  fun _ x =>
    ⟨fun h => exec_of_memRange (i := .ldB x) (nn := 0x33) rfl (rangeCheck_effAddr_of_outside h),
      fun h => exec_of_memRange (i := .storeRegs x) (nn := 0x55) rfl (rangeCheck_effAddr_of_outside h),
      fun h => exec_of_memRange (i := .loadRegs x) (nn := 0x65) rfl (rangeCheck_effAddr_of_outside h)⟩

/-- Settles O31: no BoundsError, and twelve bits fit the sixteen of `I`. -/
theorem loadIndexWritesTheAddress : Obligations.LoadIndexWritesTheAddress :=
  fun s nnn => ⟨effect (.ldI nnn) s, exec_of_no_boundsFault rfl,
    setI_i_toNat nnn.toNat s (nnn.isLt.trans (by decide)), rfl⟩

end Sys2Proof.Machine
end

section
/-! SUPPORT. The sprite instruction: which of its two checks faults and when both pass, which cells the sprite has a set bit
over, and what the draw leaves of each pixel and of `VF` (spec/45_draw.md R185 to R190, spec/60_exceptions.md R201, R206). -/

namespace Sys2Proof.Machine

/-! ## The checks (R186, R188, R206) -/

/-- The draw raises no BoundsError where it has no row, or its bytes lie in memory and its rectangle in the grid. -/
theorem boundsFault_drw_eq_none (x y : Reg) (n : Nibble) (s : State) :
    boundsFault (.drw x y n) s = none ↔ n.toNat = 0 ∨
      (s.i.toNat + n.toNat - 1 ≤ 4095 ∧ (readV s x).toNat + 7 ≤ 63 ∧ (readV s y).toNat + n.toNat - 1 ≤ 31) := by
  rw [boundsFault, spriteCheck, Option.or_eq_none_iff, rangeCheck_eq_none, gridCheck_eq_none, effAddr_zero]
  omega

/-- Memory is checked first, so its fault hides the one of the grid. -/
theorem boundsFault_drw_of_memory_outside (x y : Reg) {n : Nibble} {s : State} (hn : 0 < n.toNat)
    (h : s.i.toNat + n.toNat - 1 > 4095) : boundsFault (.drw x y n) s = some .memRange := by
  have hrange : rangeCheck (effAddr s 0) n.toNat = some .memRange :=
    if_pos ⟨hn, by simp only [effAddr_zero, Config.memSize]; omega⟩
  rw [boundsFault, spriteCheck, hrange, Option.some_or]

theorem boundsFault_drw_of_grid_outside {x y : Reg} {n : Nibble} {s : State} (hn : 0 < n.toNat)
    (hmem : s.i.toNat + n.toNat - 1 ≤ 4095)
    (h : (readV s x).toNat + 7 > 63 ∨ (readV s y).toNat + n.toNat - 1 > 31) :
    boundsFault (.drw x y n) s = some .displayRange := by
  have hrange : rangeCheck (effAddr s 0) n.toNat = none :=
    (rangeCheck_eq_none _ _).2 (.inr (by rw [effAddr_zero]; omega))
  rw [boundsFault, spriteCheck, hrange, Option.none_or]
  exact if_pos ⟨hn, h⟩

/-- Settles O14, by the order of the two checks; the word recorded is the packed operands. -/
theorem drawChecksMemoryBeforeDisplay : Obligations.DrawChecksMemoryBeforeDisplay :=
  fun _ x y n hn => ⟨fun h => exec_of_boundsFault (boundsFault_drw_of_memory_outside x y hn h),
    fun hmem h => exec_of_boundsFault (boundsFault_drw_of_grid_outside hn hmem h), packXYN_toNat 0xD x y n (by decide)⟩

/-! ## The cells under a sprite's bits (R187) -/

section
variable (m : Memory) (a x0 y0 n : Nat)

theorem spriteBit_inside {row col : Nat} (hrow : row < n) (hcol : col < 8) :
    spriteBit m a x0 y0 n (x0 + col) (y0 + row) = (m.read (a + row)).getLsbD (7 - col) := by
  simp [spriteBit, rowBit, hrow, hcol]

theorem spriteBit_outside {c r : Nat} (h : ¬(x0 ≤ c ∧ c < x0 + 8 ∧ y0 ≤ r ∧ r < y0 + n)) :
    spriteBit m a x0 y0 n c r = false := by
  by_cases hr : y0 ≤ r ∧ r < y0 + n
  · have hc : ¬(x0 ≤ c ∧ c < x0 + 8) := fun hc => h ⟨hc.1, hc.2, hr⟩
    rw [spriteBit, rowBit, decide_eq_false hc, Bool.false_and, Bool.and_false]
  · rw [spriteBit, decide_eq_false hr, Bool.false_and]

/-- A cell under a set bit is named by the sprite's row and column. -/
theorem exists_spriteBit (P : Nat → Nat → Prop) :
    (∃ c r, spriteBit m a x0 y0 n c r = true ∧ P c r) ↔
      ∃ row col, row < n ∧ col < 8 ∧ (m.read (a + row)).getLsbD (7 - col) = true ∧ P (x0 + col) (y0 + row) := by
  constructor
  · rintro ⟨c, r, hbit, hP⟩
    have hin : x0 ≤ c ∧ c < x0 + 8 ∧ y0 ≤ r ∧ r < y0 + n :=
      of_not_not fun hout => Bool.false_ne_true ((spriteBit_outside m a x0 y0 n hout).symm.trans hbit)
    obtain ⟨col, rfl⟩ := Nat.exists_eq_add_of_le hin.1
    obtain ⟨row, rfl⟩ := Nat.exists_eq_add_of_le hin.2.2.1
    have hcol : col < 8 := by omega
    have hrow : row < n := by omega
    exact ⟨row, col, hrow, hcol, (spriteBit_inside m a x0 y0 n hrow hcol).symm.trans hbit, hP⟩
  · rintro ⟨row, col, hrow, hcol, hbit, hP⟩
    exact ⟨x0 + col, y0 + row, (spriteBit_inside m a x0 y0 n hrow hcol).trans hbit, hP⟩

end

/-- A row byte has a set bit exactly when it is not 0. -/
theorem exists_column_bit_iff (b : Byte) : (∃ col, col < 8 ∧ b.getLsbD (7 - col) = true) ↔ b ≠ 0 := by
  constructor
  · rintro ⟨col, -, hbit⟩ rfl
    simp at hbit
  · intro hb
    by_contra hnone
    refine hb (BitVec.eq_of_getLsbD_eq fun k hk => ?_)
    have hoff : b.getLsbD (7 - (7 - k)) ≠ true := fun hbit => hnone ⟨7 - k, by omega, hbit⟩
    rw [Nat.sub_sub_self (by omega)] at hoff
    simpa using hoff

/-! ## What the draw leaves (R186, R189) -/

/-- Whether the sprite of `DXYN` in state `s` has a set bit over the cell in column `c` and row `r`. -/
def drawnBit (x y : Reg) (n : Nibble) (s : State) (c r : Nat) : Bool :=
  spriteBit s.mem (effAddr s 0) (readV s x).toNat (readV s y).toNat n.toNat c r

theorem exists_drawnBit (x y : Reg) (n : Nibble) (s : State) (P : Nat → Nat → Prop) :
    (∃ c r, drawnBit x y n s c r = true ∧ P c r) ↔
      ∃ row col, row < n.toNat ∧ col < 8 ∧ (s.mem.read (effAddr s row)).getLsbD (7 - col) = true ∧
        P ((readV s x).toNat + col) ((readV s y).toNat + row) :=
  exists_spriteBit s.mem (effAddr s 0) _ _ _ P

/-- The sprite has a set bit somewhere exactly when one of its bytes is not 0. -/
theorem exists_drawnBit_iff_byte_ne_zero (x y : Reg) (n : Nibble) (s : State) :
    (∃ c r, drawnBit x y n s c r = true) ↔ ∃ row, row < n.toNat ∧ s.mem.read (effAddr s row) ≠ 0 := by
  have hbits := exists_drawnBit x y n s fun _ _ => True
  simp only [and_true] at hbits
  rw [hbits]
  refine exists_congr fun row => ?_
  rw [exists_and_left, exists_column_bit_iff]

/-- Where the draw raises no BoundsError, what it paints and its collision are those of the sprite's bits. -/
theorem spriteOf_spec {x y : Reg} {n : Nibble} {s : State} (h : boundsFault (.drw x y n) s = none) :
    (∀ c r, (spriteOf x y n s).1.px c r = (s.px.px c r ^^ drawnBit x y n s c r)) ∧
      ((spriteOf x y n s).2 = true ↔ ∃ c r, drawnBit x y n s c r = true ∧ s.px.px c r = true) := by
  rcases (boundsFault_drw_eq_none x y n s).1 h with hzero | ⟨-, hx, hy⟩
  · have hbit : ∀ c r, drawnBit x y n s c r = false := fun c r => spriteBit_outside _ _ _ _ _ (by omega)
    have hsprite : spriteOf x y n s = (s.px, false) := by rw [spriteOf, hzero, blitSprite, List.range_zero, List.foldl_nil]
    simp [hsprite, hbit]
  · exact blitSprite_spec _ _ _ _ _ _ (by omega) (by omega)

theorem flagByte_eq_one_iff (f : Bool) : flagByte f = 1 ↔ f = true := by
  cases f <;> decide

theorem readV_effect_drw_VF (x y : Reg) (n : Nibble) (s : State) :
    readV (effect (.drw x y n) s) VF = flagByte (spriteOf x y n s).2 :=
  readV_writeFlag_VF (spriteOf x y n s).2 s

theorem readV_effect_drw_VF_cases (x y : Reg) (n : Nibble) (s : State) :
    readV (effect (.drw x y n) s) VF = 0 ∨ readV (effect (.drw x y n) s) VF = 1 := by
  rw [readV_effect_drw_VF]
  cases (spriteOf x y n s).2
  · exact .inl rfl
  · exact .inr rfl

theorem readV_effect_drw_of_ne_VF {r : Reg} (hr : r ≠ VF) (x y : Reg) (n : Nibble) (s : State) :
    readV (effect (.drw x y n) s) r = readV s r :=
  readV_writeV_other VF r _ s hr

theorem px_effect_drw {x y : Reg} {n : Nibble} {s : State} (h : boundsFault (.drw x y n) s = none) (c r : Nat) :
    (effect (.drw x y n) s).px.px c r = (s.px.px c r ^^ drawnBit x y n s c r) :=
  (spriteOf_spec h).1 c r

theorem readV_effect_drw_VF_eq_one {x y : Reg} {n : Nibble} {s : State} (h : boundsFault (.drw x y n) s = none) :
    readV (effect (.drw x y n) s) VF = 1 ↔ ∃ c r, drawnBit x y n s c r = true ∧ s.px.px c r = true := by
  rw [readV_effect_drw_VF, flagByte_eq_one_iff, (spriteOf_spec h).2]

/-- Settles O36, by the set bit of the sprite over each cell, inside its rectangle and outside. -/
theorem drawFlipsThePixelsUnderSetBits : Obligations.DrawFlipsThePixelsUnderSetBits := by
  intro s x y n h
  have hnone : boundsFault (.drw x y n) s = none := (boundsFault_drw_eq_none x y n s).2 h
  refine ⟨effect (.drw x y n) s, exec_of_no_boundsFault hnone, fun row col hrow hcol => ?_, fun c r hout => ?_,
    readV_effect_drw_VF_cases x y n s, ?_, fun r hr => readV_effect_drw_of_ne_VF hr x y n s, rfl, rfl⟩
  · rw [px_effect_drw hnone, drawnBit, spriteBit_inside _ _ _ _ _ hrow hcol, effAddr_zero, effAddr]
  · rw [px_effect_drw hnone, drawnBit, spriteBit_outside _ _ _ _ _ hout, Bool.xor_false]
  · rw [readV_effect_drw_VF_eq_one hnone, exists_drawnBit]

/-! ## A second draw at the same place (R189) -/

section
variable {x y : Reg} (hx : x ≠ VF) (hy : y ≠ VF) (n : Nibble) (s : State)
include hx hy

/-- A draw keeps the sprite and its place, since neither coordinate is in `VF`. -/
theorem drawnBit_effect_drw : drawnBit x y n (effect (.drw x y n) s) = drawnBit x y n s := by
  funext c r
  rw [drawnBit, readV_effect_drw_of_ne_VF hx, readV_effect_drw_of_ne_VF hy]
  rfl

theorem boundsFault_drw_effect_drw : boundsFault (.drw x y n) (effect (.drw x y n) s) = boundsFault (.drw x y n) s := by
  rw [boundsFault, spriteCheck, readV_effect_drw_of_ne_VF hx, readV_effect_drw_of_ne_VF hy]
  rfl

end

/-- Settles O37: the second draw flips the same cells as the first, so each is flipped back; on a clear display the first
lights the cells under set bits, and the second draws over them. -/
theorem drawTwiceRestoresThePicture : Obligations.DrawTwiceRestoresThePicture := by
  intro s x y n hx hy hmem hcol hrow
  have hnone : boundsFault (.drw x y n) s = none := (boundsFault_drw_eq_none x y n s).2 (.inr ⟨hmem, hcol, hrow⟩)
  have hagain : boundsFault (.drw x y n) (effect (.drw x y n) s) = none :=
    (boundsFault_drw_effect_drw hx hy n s).trans hnone
  refine ⟨effect (.drw x y n) s, effect (.drw x y n) (effect (.drw x y n) s), exec_of_no_boundsFault hnone,
    exec_of_no_boundsFault hagain, Display.ext_px _ _ fun c r _ _ => ?_, fun hclear => ⟨?_, ?_⟩⟩
  · rw [px_effect_drw hagain, px_effect_drw hnone, drawnBit_effect_drw hx hy, Bool.xor_assoc, Bool.xor_self,
      Bool.xor_false]
  · refine (readV_effect_drw_VF_cases x y n s).resolve_right fun hhit => ?_
    obtain ⟨c, r, -, hon⟩ := (readV_effect_drw_VF_eq_one hnone).1 hhit
    exact Bool.false_ne_true ((hclear c r).symm.trans hon)
  · have hlit : ∀ c r, (effect (.drw x y n) s).px.px c r = drawnBit x y n s c r := fun c r => by
      rw [px_effect_drw hnone, hclear, Bool.false_xor]
    simp only [readV_effect_drw_VF_eq_one hagain, drawnBit_effect_drw hx hy, hlit, and_self]
    exact exists_drawnBit_iff_byte_ne_zero x y n s

end Sys2Proof.Machine
end

section
/-! SUPPORT. The inert key opcodes and timer access: one effect each, then the cycle that sets the delay timer and the one that
reads it back (spec/46_keys_timers.md R192 to R198, spec/70_reset_and_hazards.md R254). -/

namespace Sys2Proof.Machine

/-- Settles O43: none of the three raises a BoundsError, and the effect of each is the state itself, the key port unread. -/
theorem inertKeyOpcodesChangeNothing : Obligations.InertKeyOpcodesChangeNothing :=
  fun _ _ => ⟨exec_of_no_boundsFault rfl, exec_of_no_boundsFault rfl, exec_of_no_boundsFault rfl⟩

/-- Settles O44: none of the three raises a BoundsError; the read is one write to `V[x]`, and each write sets one timer. -/
theorem timerRegistersMoveWhole : Obligations.TimerRegistersMoveWhole :=
  fun s x => ⟨⟨effect (.ldVxDt x) s, exec_of_no_boundsFault rfl, readV_writeV_same x s.dt s, writeV_frame x s.dt s⟩,
    exec_of_no_boundsFault rfl, exec_of_no_boundsFault rfl⟩

/-! ## A timer set in one cycle and read in the next (R198, R254) -/

/-- The cycle that fetches the word of an instruction has that instruction's effect, then the tick. -/
theorem step_of_fetch_encode {i : Instr} {s : State} (hwf : i.wellFormed = true) (hrun : s.run = true)
    (hfetch : fetchOpcode s = some (encode i)) (hnone : boundsFault i (advance s) = none) :
    step s = .next (tick (effect i (advance s))) := by
  have hdecode : decodeWord (encode i) = i := decodeWord_encode hwf
  rw [step_of_no_boundsFault hrun hfetch (by rw [hdecode, hnone]), hdecode]

/-- `FX15` sets the timer before the tick of its own cycle. -/
theorem dt_tick_effect_ldDtVx (x : Reg) (s : State) :
    (tick (effect (.ldDtVx x) (advance s))).dt = countDown (readV s x) := rfl

/-- `FX07` reads the timer before the tick of its own cycle. -/
theorem readV_tick_effect_ldVxDt (y : Reg) (s : State) :
    readV (tick (effect (.ldVxDt y) (advance s))) y = s.dt :=
  readV_writeV_same y s.dt (advance s)

/-- Settles O45: of the two ticks only the one of the first cycle comes between the write of `DT` and its read. -/
theorem delaySetReadsBackOneLess : Obligations.DelaySetReadsBackOneLess := by
  intro s t x y hrun hset hstep hread
  obtain rfl : tick (effect (.ldDtVx x) (advance s)) = t :=
    Host.Outcome.next.inj ((step_of_fetch_encode rfl hrun hset rfl).symm.trans hstep)
  refine ⟨_, step_of_fetch_encode rfl hrun hread rfl, ?_⟩
  rw [readV_tick_effect_ldVxDt, dt_tick_effect_ldDtVx, countDown_toNat]

end Sys2Proof.Machine
end

section
/-! SUPPORT. How a cycle and a run end: every execute stage and every cycle answers a next state, the tick ends the cycle
that raised no BoundsError, an illegal word halts, only `EXIT` halts without a fault, and a halted core stays as it is
(spec/60_exceptions.md R201 to R209, R226, spec/70_reset_and_hazards.md R250, R251). -/

namespace Sys2Proof.Machine

/-! ## Every cycle answers (R202 to R204, R207) -/

/-- Settles O7: each of the ways an execute stage or a cycle can go answers a next state. -/
theorem everyStepAnswersNext : Obligations.EveryStepAnswersNext := by
  refine ⟨fun i s => ?_, fun s => ?_⟩
  · rcases exec_cases i s with ⟨_, _, he⟩ | ⟨_, he⟩
    all_goals exact ⟨_, he⟩
  · rcases step_cases s with ⟨_, he⟩ | ⟨_, _, he⟩ | ⟨_, _, _, _, _, he⟩ | ⟨_, _, _, _, he⟩
    all_goals exact ⟨_, he⟩

/-! ## The halted core (R207, R209) -/

/-- Settles O8: the cycle of a halted core is `haltedCycle`, which writes `BEEP` alone. -/
theorem haltedCycleChangesOnlyBeep : Obligations.HaltedCycleChangesOnlyBeep := fun _ => step_of_halted

/-- A run whose first cycle answers `t` goes on from `t`. -/
theorem run_succ_of_step {s t : State} (k : Nat) (h : step s = .next t) :
    Host.Core.run Sys2Proof.core (k + 1) s = Host.Core.run Sys2Proof.core k t := by
  have hcore : Sys2Proof.core.step s = .next t := h
  simp only [Host.Core.run, hcore]

/-- A second halted cycle finds `BEEP` already 0. -/
theorem haltedCycle_haltedCycle (s : State) : haltedCycle (haltedCycle s) = haltedCycle s := rfl

/-- Settles O59, by induction on the number of cycles after the first: each is a halted cycle of a halted core. -/
theorem faultIsPermanent : Obligations.FaultIsPermanent := by
  intro k
  induction k with
  | zero => exact fun s hrun => run_succ_of_step 0 (step_of_halted hrun)
  | succ k ih =>
    intro s hrun
    have hrest := ih (haltedCycle s) hrun
    exact (run_succ_of_step (k + 1) (step_of_halted hrun)).trans hrest

/-! ## The tick (R226) -/

/-- The cycle whose execute stage answers `t` and raises no BoundsError ends in the tick of `t`. -/
theorem step_of_exec {s t : State} {w : Word} (hrun : s.run = true) (hfetch : fetchOpcode s = some w)
    (hexec : exec (decodeWord w) (advance s) = .next t) (hnone : boundsFault (decodeWord w) (advance s) = none) :
    step s = .next (tick t) := by
  rw [step_of_fetch hrun hfetch, executeCycle_of_exec hexec, hnone]
  rfl

/-- Settles O10: the cycle answers the tick of `t`, which counts both timers down and sets `BEEP`. -/
theorem tickEndsACycleWithoutBoundsError : Obligations.TickEndsACycleWithoutBoundsError :=
  fun _ t _ hrun hfetch hexec hnone => ⟨tick t, step_of_exec hrun hfetch hexec hnone, countDown_toNat t.dt,
    countDown_toNat t.st, tick_beep_toNat t, rfl⟩

/-! ## The illegal words (R203) -/

/-- The cycle that fetches an illegal word records it, then ticks (D11). -/
theorem step_of_illegal {s : State} {w : Word} (hrun : s.run = true) (hfetch : fetchOpcode s = some w)
    (hillegal : (decodeWord w).illegal = true) : step s = .next (tick (takeFault .decode w (advance s))) := by
  rw [step_of_exec hrun hfetch (exec_of_illegal hillegal _) (boundsFault_of_illegal hillegal _), raiseDecode,
    encode_decodeWord]

/-- Settles O12: the cycle is the DecodeError on the advanced state, then the tick, which reads the timers as they were. -/
theorem illegalWordHaltsAfterTheTick : Obligations.IllegalWordHaltsAfterTheTick := by
  intro s w hrun hfetch hillegal
  refine ⟨tick (takeFault .decode w (advance s)), step_of_illegal hrun hfetch hillegal, countDown_toNat s.dt,
    countDown_toNat s.st, ?_⟩
  have hbeep : (tick (takeFault .decode w (advance s))).beep = decide (s.st.toNat = 1) := tick_beep_toNat _
  rw [← hbeep]
  rfl

/-! ## The good end (R251) -/

/-- A fault entry is no good end. -/
theorem not_goodEnd_takeFault {c : FaultCode} (hc : c ≠ .none) (w : Word) (s : State) : ¬GoodEnd (takeFault c w s) :=
  fun hgood => hgood.2 hc

/-- The tick leaves `RUN` and `FAULT` alone, and so how a run ends. -/
theorem goodEnd_tick (s : State) : GoodEnd (tick s) ↔ GoodEnd s := Iff.rfl

/-- Of the effects on a running core only that of `EXIT` is a good end: an illegal word faults, any other keeps `RUN`. -/
theorem eq_exit_of_goodEnd_effect {i : Instr} {s : State} (hrun : s.run = true) (hgood : GoodEnd (effect i s)) :
    i = .exit := by
  cases hillegal : i.illegal with
  | true =>
    rw [effect_of_illegal i s hillegal] at hgood
    exact absurd hgood (not_goodEnd_takeFault (by decide) (encode i) s)
  | false =>
    by_contra hexit
    have hhalted : (effect i s).run = false := hgood.1
    rw [effect_run i s hillegal hexit, hrun] at hhalted
    cases hhalted

/-- The word of `EXIT` is 0x00FD alone (R106). -/
theorem eq_of_decodeWord_eq_exit {w : Word} (h : decodeWord w = .exit) : w = 0x00FD := by
  rw [← encode_decodeWord w, h]
  rfl

/-- Settles O58: a fetch fault and a BoundsError leave a fault, and of the effects only that of `EXIT` ends the run well. -/
theorem onlyExitEndsARunWell : Obligations.OnlyExitEndsARunWell := by
  intro s t _ hrun hstep hgood
  rcases step_cases s with ⟨hhalted, _⟩ | ⟨_, _, he⟩ | ⟨w, c, _, _, hc, he⟩ | ⟨w, _, hfetch, _, he⟩
  · rw [hrun] at hhalted
    cases hhalted
  all_goals obtain rfl := Host.Outcome.next.inj (he.symm.trans hstep)
  · exact absurd hgood (not_goodEnd_takeFault (by decide) s.pc _)
  · have hcode : c ≠ .none := fun hcode => boundsFault_ne_none _ _ (hcode ▸ hc)
    exact absurd hgood (not_goodEnd_takeFault hcode w _)
  · have hexit : decodeWord w = .exit := eq_exit_of_goodEnd_effect (s := advance s) hrun ((goodEnd_tick _).1 hgood)
    rw [hfetch, eq_of_decodeWord_eq_exit hexit]

end Sys2Proof.Machine
end
